-- ==== Sys2Proof/Word.lean ====
section
/-! DEFINITION. The words of the CORE (R7, R9): 32-bit datapath words, bytes, and the fixed-size word arrays of
`10_state.md`. -/

namespace Sys2Proof

/-- `WORD` of R7: the datapath and host data width. -/
abbrev Word := BitVec 32

/-- One 8-bit value of a byte string (R11). -/
abbrev Byte := BitVec 8

/-- A 16-word block state: `S`, `X` and `Z` (R118, R412). -/
abbrev Block := Vector Word 16

/-- Eight key words: `KEY_STAGE`, `K` (R101, R108). -/
abbrev KeyWords := Vector Word 8

/-- Two nonce words: `NONCE_STAGE`, `N` (R103, R109). -/
abbrev NonceWords := Vector Word 2

/-- The all-zero arrays of the reset values (R101, R103, R108, R109). -/
abbrev KeyWords.zero : KeyWords := #v[0, 0, 0, 0, 0, 0, 0, 0]
@[inherit_doc KeyWords.zero] abbrev NonceWords.zero : NonceWords := #v[0, 0]
@[inherit_doc KeyWords.zero] abbrev Block.zero : Block := #v[0, 0, 0, 0, 0, 0, 0, 0, 0, 0, 0, 0, 0, 0, 0, 0]

end Sys2Proof
end

