-- ==== Sys2Proof/Syntax.lean ====
section
/-! DEFINITION. The operations of the CORE: one constructor per row of the opcode table (30 R301, R303; the INTERNAL rows
of files 40 and 43), and the error codes of R601. -/

namespace Sys2Proof

/-- The error codes of R601. Code 7 is "never written by any rule" and is not represented (log 11). -/
inductive ErrCode where
  | none
  | invalidKeySize
  | invalidNonceSize
  | notConfigured
  | illegalCommand
  | illegalLength
  | busyOverrun
  deriving DecidableEq, Repr

/-- A half-round: the column pass or the diagonal pass (R404, R405). -/
inductive Half where
  | column
  | diagonal
  deriving DecidableEq, Repr

/-- One constructor per row of the opcode table. -/
inductive Instr where
  -- BUS rows (R301): one host access each; a write carries `wdata`
  /-- R556 -/
  | wrCtrl (wdata : Word)
  /-- R557 -/
  | rdCtrl
  /-- R552 -/
  | rdStatus
  /-- R553 -/
  | wrStatus (wdata : Word)
  /-- R554 -/
  | rdDin
  /-- R555 -/
  | wrDin (wdata : Word)
  /-- R558 -/
  | rdDout
  /-- R559 -/
  | wrDout (wdata : Word)
  /-- R560 -/
  | rdCtrLo
  /-- R561 -/
  | rdCtrHi
  /-- R562; `h` is the counter half, 0 low, 1 high -/
  | wrCtr (h : Fin 2) (wdata : Word)
  /-- R563 -/
  | rdCtrstgLo
  /-- R564 -/
  | rdCtrstgHi
  /-- R565 -/
  | wrCtrstgLo (wdata : Word)
  /-- R566 -/
  | wrCtrstgHi (wdata : Word)
  /-- R567 -/
  | wrKey (k : Fin 8) (wdata : Word)
  /-- R568 -/
  | rdKey (k : Fin 8)
  /-- R569 -/
  | wrNonce (n : Fin 2) (wdata : Word)
  /-- R570 -/
  | rdNonce (n : Fin 2)
  /-- R571; `a` is the word slot, 18..63 -/
  | rdUnmapped (a : BitVec 6)
  /-- R572; `a` is the word slot, 18..63 -/
  | wrUnmapped (a : BitVec 6) (wdata : Word)
  -- CMD rows (R302, R303): the completion of that command
  /-- R501 -/
  | nop
  /-- R502 -/
  | init
  /-- R506 -/
  | setCounter
  /-- R452; `len` is the field `LEN`, 5..7 included (R608) -/
  | keystream (len : BitVec 3)
  /-- R453; `len` is the field `LEN`, 5..7 included (R608) -/
  | crypt (len : BitVec 3)
  /-- R607, the table's default row; `word` is the command word -/
  | illegal (word : Word)
  -- INTERNAL rows: no encoding
  /-- R575 -/
  | engineStep
  /-- R402, on the four words of one lane of a half-round (R404, R405) -/
  | qr (half : Half) (lane : Fin 4)
  /-- R404 -/
  | columnRound
  /-- R405 -/
  | diagonalRound
  /-- R406 -/
  | doubleRound
  /-- R408, R409 -/
  | permute
  /-- R410; the operands are the datapath's arguments (R400) -/
  | initState (key : KeyWords) (nonce : NonceWords) (ctr : BitVec 64)
  /-- R412 -/
  | feedForward
  /-- R413 -/
  | serialize
  /-- R416; the operands are the datapath's arguments (R400) -/
  | block (key : KeyWords) (nonce : NonceWords) (ctr : BitVec 64)
  deriving DecidableEq, Repr

end Sys2Proof
end

