-- ==== Sys2Proof/WellFormed.lean ====
section
/-! DEFINITION. Which terms of `Instr` stand for an operation the encoding can name. -/

namespace Sys2Proof

/-- The words of the table's ILLEGAL row (R307, R607): `RSV` set, or `OP` reserved, or a `LEN` on a command that takes none. -/
def illegalWord (w : Word) : Bool :=
  w.extractLsb' 7 25 != 0 || 5 ≤ (w.extractLsb' 0 4).toNat ||
    ((w.extractLsb' 0 4).toNat ≤ 2 && w.extractLsb' 4 3 != 0)

/-- The unmapped word slots (R301): 18..63. -/
def unmappedSlot (a : BitVec 6) : Bool := 18 ≤ a.toNat

/-- An operation the encoding can name: an unmapped access names an unmapped slot, and an ILLEGAL row's word is none of the
other rows' words. -/
def Instr.wf : Instr → Bool
  | .rdUnmapped a => unmappedSlot a
  | .wrUnmapped a _ => unmappedSlot a
  | .illegal w => illegalWord w
  | .wrCtrl _ | .rdCtrl | .rdStatus | .wrStatus _ | .rdDin | .wrDin _ | .rdDout | .wrDout _ | .rdCtrLo | .rdCtrHi
  | .wrCtr _ _ | .rdCtrstgLo | .rdCtrstgHi | .wrCtrstgLo _ | .wrCtrstgHi _ | .wrKey _ _ | .rdKey _ | .wrNonce _ _
  | .rdNonce _ | .nop | .init | .setCounter | .keystream _ | .crypt _ | .engineStep | .qr _ _ | .columnRound
  | .diagonalRound | .doubleRound | .permute | .initState _ _ _ | .feedForward | .serialize | .block _ _ _ => true

end Sys2Proof
end

