-- ==== Sys2Proof/Decode.lean ====
section
/-! DEFINITION. The two formats of `30_encoding.md`: the bus selector (R300, R301) and the command word (R302 to R308),
decoded totally, and the encoder back. -/

namespace Sys2Proof

/-- What a decoder of the CORE reads: a 7-bit bus selector with the value a write carries (R300), or a command word (R302). -/
inductive Code where
  | bus (sel : BitVec 7) (wdata : Word)
  | cmd (word : Word)
  deriving DecidableEq, Repr

/-! ### Bus selector -/

/-- The selector `T = (WE, A)` of R300: `WE` is bit 6, `A` the slot `addr[7:2]`; `addr[1:0]` is ignored (R206). -/
def selector (we : Bool) (addr : BitVec 8) : BitVec 7 :=
  BitVec.ofBool we ++ addr.extractLsb' 2 6

/-- The rows of R301 with `WE = 0`. -/
def decodeRead (a : BitVec 6) : Instr :=
  match a.toNat with
  | 0 => .rdCtrl
  | 1 => .rdStatus
  | 2 => .rdDin
  | 3 => .rdDout
  | 4 => .rdCtrLo
  | 5 => .rdCtrHi
  | 6 => .rdCtrstgLo
  | 7 => .rdCtrstgHi
  | 8 => .rdKey 0
  | 9 => .rdKey 1
  | 10 => .rdKey 2
  | 11 => .rdKey 3
  | 12 => .rdKey 4
  | 13 => .rdKey 5
  | 14 => .rdKey 6
  | 15 => .rdKey 7
  | 16 => .rdNonce 0
  | 17 => .rdNonce 1
  | _ => .rdUnmapped a

/-- The rows of R301 with `WE = 1`. -/
def decodeWrite (a : BitVec 6) (wdata : Word) : Instr :=
  match a.toNat with
  | 0 => .wrCtrl wdata
  | 1 => .wrStatus wdata
  | 2 => .wrDin wdata
  | 3 => .wrDout wdata
  | 4 => .wrCtr 0 wdata
  | 5 => .wrCtr 1 wdata
  | 6 => .wrCtrstgLo wdata
  | 7 => .wrCtrstgHi wdata
  | 8 => .wrKey 0 wdata
  | 9 => .wrKey 1 wdata
  | 10 => .wrKey 2 wdata
  | 11 => .wrKey 3 wdata
  | 12 => .wrKey 4 wdata
  | 13 => .wrKey 5 wdata
  | 14 => .wrKey 6 wdata
  | 15 => .wrKey 7 wdata
  | 16 => .wrNonce 0 wdata
  | 17 => .wrNonce 1 wdata
  | _ => .wrUnmapped a wdata

/-- R301: every selector names exactly one row; a read carries no value, so `wdata` is not looked at (R300). -/
def decodeBus (sel : BitVec 7) (wdata : Word) : Instr :=
  if sel.getLsbD 6 then decodeWrite (sel.extractLsb' 0 6) wdata else decodeRead (sel.extractLsb' 0 6)

/-! ### Command word -/

/-- What R308's `decode` returns. -/
inductive Decoded where
  | illegal (code : ErrCode)
  | nop
  | init
  | setCounter
  | keystream (n : BitVec 3)
  | crypt (n : BitVec 3)
  deriving DecidableEq, Repr

/-- R308, its tests in its order (the priority of R610). -/
def decodeCommand (cmd : Word) : Decoded :=
  let op := (cmd.extractLsb' 0 4).toNat
  let len := cmd.extractLsb' 4 3
  let rsv := cmd.extractLsb' 7 25
  if rsv ≠ 0 ∨ 5 ≤ op then .illegal .illegalCommand
  else if op ≤ 2 ∧ len ≠ 0 then .illegal .illegalCommand
  else if 3 ≤ op ∧ 5 ≤ len.toNat then .illegal .illegalLength
  else
    match op with
    | 0 => .nop
    | 1 => .init
    | 2 => .setCounter
    | 3 => .keystream len
    | _ => .crypt len

/-- The row of the opcode table a command word belongs to: the KEYSTREAM and CRYPT rows hold `LEN` 5..7 too, the default row
ILLEGAL every word no other row matches (log 9). -/
def decodeRow (cmd : Word) : Instr :=
  let op := (cmd.extractLsb' 0 4).toNat
  let len := cmd.extractLsb' 4 3
  if illegalWord cmd then .illegal cmd
  else
    match op with
    | 0 => .nop
    | 1 => .init
    | 2 => .setCounter
    | 3 => .keystream len
    | _ => .crypt len

/-- R309: one word is enough. -/
def decode : Code → Instr
  | .bus sel wdata => decodeBus sel wdata
  | .cmd word => decodeRow word

/-! ### Encoder -/

/-- A read's selector (R301). -/
def readSel (a : BitVec 6) : BitVec 7 := 0#1 ++ a
/-- A write's selector (R301). -/
def writeSel (a : BitVec 6) : BitVec 7 := 1#1 ++ a
/-- A command word from its three fields (R302). -/
def commandWord (op : BitVec 4) (len : BitVec 3) : Word := 0#25 ++ len ++ op

/-- The encoding of an operation (R301, R303); the INTERNAL rows have none. A read's code carries no value: 0 stands there. -/
def encode : Instr → Option Code
  | .wrCtrl d => some (.bus (writeSel 0) d)
  | .rdCtrl => some (.bus (readSel 0) 0)
  | .rdStatus => some (.bus (readSel 1) 0)
  | .wrStatus d => some (.bus (writeSel 1) d)
  | .rdDin => some (.bus (readSel 2) 0)
  | .wrDin d => some (.bus (writeSel 2) d)
  | .rdDout => some (.bus (readSel 3) 0)
  | .wrDout d => some (.bus (writeSel 3) d)
  | .rdCtrLo => some (.bus (readSel 4) 0)
  | .rdCtrHi => some (.bus (readSel 5) 0)
  | .wrCtr h d => some (.bus (writeSel (0b00010#5 ++ BitVec.ofNat 1 h.val)) d)
  | .rdCtrstgLo => some (.bus (readSel 6) 0)
  | .rdCtrstgHi => some (.bus (readSel 7) 0)
  | .wrCtrstgLo d => some (.bus (writeSel 6) d)
  | .wrCtrstgHi d => some (.bus (writeSel 7) d)
  | .wrKey k d => some (.bus (writeSel (0b001#3 ++ BitVec.ofNat 3 k.val)) d)
  | .rdKey k => some (.bus (readSel (0b001#3 ++ BitVec.ofNat 3 k.val)) 0)
  | .wrNonce n d => some (.bus (writeSel (0b01000#5 ++ BitVec.ofNat 1 n.val)) d)
  | .rdNonce n => some (.bus (readSel (0b01000#5 ++ BitVec.ofNat 1 n.val)) 0)
  | .rdUnmapped a => some (.bus (readSel a) 0)
  | .wrUnmapped a d => some (.bus (writeSel a) d)
  | .nop => some (.cmd (commandWord 0 0))
  | .init => some (.cmd (commandWord 1 0))
  | .setCounter => some (.cmd (commandWord 2 0))
  | .keystream n => some (.cmd (commandWord 3 n))
  | .crypt n => some (.cmd (commandWord 4 n))
  | .illegal w => some (.cmd w)
  | .engineStep | .qr _ _ | .columnRound | .diagonalRound | .doubleRound | .permute | .initState _ _ _ | .feedForward
  | .serialize | .block _ _ _ => none

/-! ### Raw words -/

/-- Why bits are no code of the CORE. -/
inductive DecodeError where
  /-- A bus selector has 7 bits (R300), a command word 32 (R302): no other format exists (R309). -/
  | noSuchFormat (nbits : Nat)
  /-- A bit stands above the format's last one. -/
  | tooWide (nbits : Nat)
  deriving DecidableEq, Repr

/-- The code in `nbits` bits of value `w`, numbered as the opcode table numbers them; a selector fills 7 bits of a byte. A
write selector alone carries the value 0. -/
def readCode (nbits w : Nat) : Except DecodeError Code :=
  if nbits = 7 ∨ nbits = 8 then
    if w < 128 then .ok (.bus (BitVec.ofNat 7 w) 0) else .error (.tooWide nbits)
  else if nbits = 32 then
    if w < 4294967296 then .ok (.cmd (BitVec.ofNat 32 w)) else .error (.tooWide nbits)
  else .error (.noSuchFormat nbits)

/-- The operation in `nbits` bits of value `w`. -/
def decodeTableWord (nbits w : Nat) : Option Instr :=
  match readCode nbits w with
  | .ok code => some (decode code)
  | .error _ => none

/-! ### The opcode table's patterns -/

/-- A row of the opcode table: its mnemonic, and the bits `match` under `mask`. -/
structure Row where
  mnemonic : String
  pattern : Nat
  mask : Nat
  deriving DecidableEq, Repr

/-- The BUS rows of the opcode table, in its order; the two default rows last. -/
def busRows : List Row :=
  [⟨"WR_CTRL", 0x40, 0x7f⟩, ⟨"RD_CTRL", 0x00, 0x7f⟩, ⟨"RD_STATUS", 0x01, 0x7f⟩, ⟨"WR_STATUS", 0x41, 0x7f⟩,
   ⟨"RD_DIN", 0x02, 0x7f⟩, ⟨"WR_DIN", 0x42, 0x7f⟩, ⟨"RD_DOUT", 0x03, 0x7f⟩, ⟨"WR_DOUT", 0x43, 0x7f⟩,
   ⟨"RD_CTR_LO", 0x04, 0x7f⟩, ⟨"RD_CTR_HI", 0x05, 0x7f⟩, ⟨"WR_CTR", 0x44, 0x7e⟩] ++
  [⟨"RD_CTRSTG_LO", 0x06, 0x7f⟩, ⟨"RD_CTRSTG_HI", 0x07, 0x7f⟩, ⟨"WR_CTRSTG_LO", 0x46, 0x7f⟩,
   ⟨"WR_CTRSTG_HI", 0x47, 0x7f⟩, ⟨"WR_KEY", 0x48, 0x78⟩, ⟨"RD_KEY", 0x08, 0x78⟩, ⟨"WR_NONCE", 0x50, 0x7e⟩,
   ⟨"RD_NONCE", 0x10, 0x7e⟩, ⟨"RD_UNMAPPED", 0x00, 0x40⟩, ⟨"WR_UNMAPPED", 0x40, 0x40⟩]

/-- The CMD rows of the opcode table; the default row ILLEGAL last. -/
def cmdRows : List Row :=
  [⟨"NOP", 0x0, 0xffffffff⟩, ⟨"INIT", 0x1, 0xffffffff⟩, ⟨"SET_COUNTER", 0x2, 0xffffffff⟩,
   ⟨"KEYSTREAM", 0x3, 0xffffff8f⟩, ⟨"CRYPT", 0x4, 0xffffff8f⟩, ⟨"ILLEGAL", 0x0, 0x0⟩]

/-- The first row a value matches. -/
def firstRow (rows : List Row) (v : Nat) : Option String :=
  (rows.find? fun r => v &&& r.mask == r.pattern).map Row.mnemonic

/-- The row of the opcode table a constructor stands for. -/
def Instr.mnemonic : Instr → String
  | .wrCtrl _ => "WR_CTRL"
  | .rdCtrl => "RD_CTRL"
  | .rdStatus => "RD_STATUS"
  | .wrStatus _ => "WR_STATUS"
  | .rdDin => "RD_DIN"
  | .wrDin _ => "WR_DIN"
  | .rdDout => "RD_DOUT"
  | .wrDout _ => "WR_DOUT"
  | .rdCtrLo => "RD_CTR_LO"
  | .rdCtrHi => "RD_CTR_HI"
  | .wrCtr _ _ => "WR_CTR"
  | .rdCtrstgLo => "RD_CTRSTG_LO"
  | .rdCtrstgHi => "RD_CTRSTG_HI"
  | .wrCtrstgLo _ => "WR_CTRSTG_LO"
  | .wrCtrstgHi _ => "WR_CTRSTG_HI"
  | .wrKey _ _ => "WR_KEY"
  | .rdKey _ => "RD_KEY"
  | .wrNonce _ _ => "WR_NONCE"
  | .rdNonce _ => "RD_NONCE"
  | .rdUnmapped _ => "RD_UNMAPPED"
  | .wrUnmapped _ _ => "WR_UNMAPPED"
  | .nop => "NOP"
  | .init => "INIT"
  | .setCounter => "SET_COUNTER"
  | .keystream _ => "KEYSTREAM"
  | .crypt _ => "CRYPT"
  | .illegal _ => "ILLEGAL"
  | .engineStep => "ENGINE_STEP"
  | .qr _ _ => "QR"
  | .columnRound => "COLUMN_ROUND"
  | .diagonalRound => "DIAGONAL_ROUND"
  | .doubleRound => "DOUBLE_ROUND"
  | .permute => "PERMUTE"
  | .initState _ _ _ => "INIT_STATE"
  | .feedForward => "FEED_FORWARD"
  | .serialize => "SERIALIZE"
  | .block _ _ _ => "BLOCK"

end Sys2Proof
end

