-- ==== Sys2Proof/Machine/Operands.lean ====
section
/-! DEFINITION. The value primitives of R10 and R11: rotation, the little-endian conversions between words and bytes, the
lanes of a register (R204), the halves of a 64-bit register, and one bit of a mask. -/

namespace Sys2Proof.Machine

/-- `rotl32(v, s)` of R10, for `0 < s < 32`. -/
def rotl32 (v : Word) (s : Nat) : Word := v <<< s ||| v >>> (32 - s)

/-- `le32` of R11: byte 0 in bits [7:0]. -/
def le32 (b0 b1 b2 b3 : Byte) : Word := b3 ++ b2 ++ b1 ++ b0

/-- Lane `i` of a word: bits `[8i+7:8i]` (R204). -/
def lane (w : Word) (i : Nat) : Byte := w.extractLsb' (8 * i) 8

/-- `bytes_le` of R11. -/
def bytesLe (w : Word) : List Byte := [lane w 0, lane w 1, lane w 2, lane w 3]

/-- The low half of a 64-bit register (R203, R560). -/
def low (v : BitVec 64) : Word := v.extractLsb' 0 32

/-- The high half of a 64-bit register (R203, R561). -/
def high (v : BitVec 64) : Word := v.extractLsb' 32 32

/-- A 64-bit register from its halves (R565, R566). -/
def halves (hi lo : Word) : BitVec 64 := hi ++ lo

/-- A mask with bit `i` set as well (R567, R569). -/
def setBit {w : Nat} (mask : BitVec w) (i : Nat) : BitVec w := mask ||| 1#w <<< i

end Sys2Proof.Machine
end

