-- ==== Sys2Proof/Config.lean ====
section
/-! DEFINITION. What an implementation fixes (R7, R8), and the free values: constants with no body, so that nothing can
be proved about them. -/

namespace Sys2Proof.Config

/-- `ROUNDS` (R7, R408). -/
def rounds : Nat := 20
/-- `BLOCK_BYTES` (R7). -/
def blockBytes : Nat := 64
/-- `LEN_MAX` (R7, R304): bytes per KEYSTREAM or CRYPT command. -/
def lenMax : Nat := 4
/-- `PEND_MAX` (R7, R463): bytes the keystream buffer holds between commands. -/
def pendMax : Nat := 63
/-- `PEND_CAP` (R7, R457): bytes the keystream buffer holds inside one command. -/
def pendCap : Nat := 67

/-- `T_SHORT` (R8, R720, 93 I9), a parameter; the spec's nominal figure is 1. No step of the model reads it. Log 15. -/
opaque tShort : Nat
/-- `T_BLOCK` (R8, R720, 93 I9), a parameter; the spec's nominal figure is 22. No step of the model reads it. Log 15. -/
opaque tBlock : Nat

/-- How many CORE copies a platform places beyond the first one. Log 14. -/
opaque moreCores : Nat
/-- `INSTANCES` (R8, R616, 93 I10): at least 1. -/
def cores : Nat := moreCores + 1

/-- FREE VALUE: what `S` holds once it is dead (R118, 93 I1), fresh for each number. Log 3. -/
opaque deadS : Nat → Block
/-- FREE VALUE: what `X` holds once it is dead (R118, 93 I1). Log 3. -/
opaque deadX : Nat → Block
/-- FREE VALUE: what `RND` holds once it is dead (R119, 93 I1), within its range 0..20. Log 3. -/
opaque deadRnd : Nat → Fin 21

end Sys2Proof.Config
end

