-- ==== Sys2Proof/Machine/State.lean ====
section
/-! DEFINITION. The state of one CORE (`10_state.md` R101 to R119) as plain data, the events that reach it from outside
(R550), and the state after reset (R700). -/

namespace Sys2Proof.Machine

/-- `INFLIGHT` (R117): the command in flight, every operand copied at issue. -/
structure Inflight where
  cmd : Word
  din : Word
  key : KeyWords
  nonce : NonceWords
  kmask : BitVec 8
  nmask : BitVec 2
  ctr : BitVec 64
  deriving DecidableEq, Repr

/-- The block datapath: `S`, `X` (R118) and `RND` (R119), and the results of FEED_FORWARD and SERIALIZE, which no register of
the spec holds (log 5). -/
structure Datapath where
  /-- `S[0..15]`, the input state of the block being generated (R118, R410). -/
  s : Block
  /-- `X[0..15]`, the working state (R118, R411). -/
  x : Block
  /-- `RND`, the rounds done of the block in progress, 0..20 (R119). -/
  rnd : Fin 21
  /-- The model's own: `Z[0..15]`, the result of FEED_FORWARD (R412). -/
  z : Block
  /-- The model's own: the byte string SERIALIZE or BLOCK gave (R413, R416). -/
  bytes : List Byte
  deriving DecidableEq, Repr

/-- One host access at the port (R550, R551): `MemRead` when `we` is false, `MemWrite` when it is true (R13). -/
structure Access where
  we : Bool
  addr : BitVec 8
  wdata : Word
  deriving DecidableEq, Repr

/-- What one clock edge brings from outside (R550), and whose turn it is (R211; log 1). -/
inductive Event where
  /-- A host access in a cycle with `rst = 0` (R551). -/
  | access (a : Access)
  /-- The engine's turn: the command in flight, if there is one, completes here (R575, R722). -/
  | engine
  /-- `rst = 1` at this edge, with the access presented in that cycle, which is ignored (R700, R702). -/
  | reset (presented : Option Access)
  /-- A cycle with `sel = 0`, or a stopped clock: nothing (R551, R618). -/
  | idle
  deriving DecidableEq, Repr

/-- The state of one CORE. -/
structure State where
  /-- `KEY_STAGE[0..7]` (R101). -/
  keyStage : KeyWords
  /-- `KEY_MASK` (R102). -/
  keyMask : BitVec 8
  /-- `NONCE_STAGE[0..1]` (R103). -/
  nonceStage : NonceWords
  /-- `NONCE_MASK` (R104). -/
  nonceMask : BitVec 2
  /-- `CTR_STAGE` (R105). -/
  ctrStage : BitVec 64
  /-- `DIN` (R106). -/
  din : Word
  /-- `DOUT` (R107). -/
  dout : Word
  /-- `K[0..7]` (R108). -/
  k : KeyWords
  /-- `N[0..1]` (R109). -/
  n : NonceWords
  /-- `C`, the counter of the next block (R110). -/
  c : BitVec 64
  /-- `PEND`, the keystream buffer, next byte first (R112). -/
  pend : List Byte
  /-- `CONFIGURED` (R113). -/
  configured : Bool
  /-- `WRAPPED` (R114). -/
  wrapped : Bool
  /-- `ERR_CODE` (R115). -/
  errCode : ErrCode
  /-- `INFLIGHT` and `BUSY` (R116, R117): a command is held exactly while `BUSY = 1` (log 7). -/
  inflight : Option Inflight
  /-- `S`, `X`, `RND` (R118, R119). -/
  dp : Datapath
  /-- The model's own: the value the most recent read access returned on the port `rdata` (R550; log 2). -/
  rdata : Word
  /-- The model's own: how many free values have been drawn (log 3). -/
  tick : Nat
  /-- The model's own: what is still to come from outside, the next event first (log 1). -/
  input : List Event
  deriving DecidableEq, Repr

/-- `BUSY` (R116), also the output port `busy` (R550). -/
def State.busy (s : State) : Bool := s.inflight.isSome

/-- The datapath of `State.reset`: the spec leaves `S`, `X` and `RND` unspecified (R118, R119), zero is the model's choice
(DESIGN CHOICE, log 4, log 5). -/
def Datapath.reset : Datapath :=
  { s := Block.zero, x := Block.zero, rnd := 0, z := Block.zero, bytes := [] }

/-- The CORE right after reset (R700, R703; the reset values of R101 to R117), nothing presented at its port. -/
def State.reset : State :=
  { keyStage := KeyWords.zero, keyMask := 0, nonceStage := NonceWords.zero, nonceMask := 0, ctrStage := 0
    din := 0, dout := 0, k := KeyWords.zero, n := NonceWords.zero, c := 0, pend := [], configured := false
    wrapped := false, errCode := .none, inflight := none
    dp := Datapath.reset, rdata := 0, tick := 0, input := [] }

/-- What stops the machine: nothing does. An error is a value of `ERR_CODE` (R600, R602), an access has no error response
(R550), every command word has one outcome (R307): the spec gives no fault, so there is no constructor (log 17). Safe: nothing
is stopped, nothing is claimed of a stop. -/
inductive Fault where
  deriving DecidableEq, Repr

/-- Why the model has no meaning for an operation. -/
inductive Refusal where
  /-- Raised by `exec` for an operation the model gives no meaning, by its mnemonic; no arm raises it now. Safe: the machine
  stops where the hardware goes on. -/
  | notModelled (mnemonic : String)
  deriving DecidableEq, Repr

/-- The outcome of one operation. -/
abbrev Result := Host.Outcome State Fault Refusal

end Sys2Proof.Machine
end

