-- ==== Sys2Proof/Machine/Datapath.lean ====
section
/-! DEFINITION. The block function datapath (`40_block_function.md`): first as pure functions, as the rules write them, then
as the operations of the registers `S`, `X`, `RND` that carry it out (R409). -/

namespace Sys2Proof.Machine

/-- The four words of a quarter-round. -/
structure Quad where
  a : Word
  b : Word
  c : Word
  d : Word
  deriving DecidableEq, Repr

/-- QR (R402), its lines in order. -/
def qr (a b c d : Word) : Quad :=
  let a := a + b
  let d := rotl32 (d ^^^ a) 16
  let c := c + d
  let b := rotl32 (b ^^^ c) 12
  let a := a + b
  let d := rotl32 (d ^^^ a) 8
  let c := c + d
  let b := rotl32 (b ^^^ c) 7
  ⟨a, b, c, d⟩

/-- COLUMN_ROUND (R404). -/
def columnRound (x : Block) : Block :=
  let p := qr x[0] x[4] x[8] x[12]
  let q := qr x[1] x[5] x[9] x[13]
  let r := qr x[2] x[6] x[10] x[14]
  let t := qr x[3] x[7] x[11] x[15]
  #v[p.a, q.a, r.a, t.a,
     p.b, q.b, r.b, t.b,
     p.c, q.c, r.c, t.c,
     p.d, q.d, r.d, t.d]

/-- DIAGONAL_ROUND (R405). -/
def diagonalRound (x : Block) : Block :=
  let p := qr x[0] x[5] x[10] x[15]
  let q := qr x[1] x[6] x[11] x[12]
  let r := qr x[2] x[7] x[8] x[13]
  let t := qr x[3] x[4] x[9] x[14]
  #v[p.a, q.a, r.a, t.a,
     t.b, p.b, q.b, r.b,
     r.c, t.c, p.c, q.c,
     q.d, r.d, t.d, p.d]

/-- DOUBLE_ROUND (R406): the diagonal half reads what the column half wrote (90 C1). -/
def doubleRound (x : Block) : Block := diagonalRound (columnRound x)

/-- `n` double-rounds, one after another. -/
def doubleRounds : Nat → Block → Block
  | 0, x => x
  | n + 1, x => doubleRounds n (doubleRound x)

/-- PERMUTE (R408): ten double-rounds. -/
def permute (x : Block) : Block := doubleRounds 10 x

/-- The constant words `SIGMA` (R401). -/
def sigma : Vector Word 4 := #v[0x61707865, 0x3320646e, 0x79622d32, 0x6b206574]

/-- INIT_STATE (R410). -/
def initState (key : KeyWords) (nonce : NonceWords) (c : BitVec 64) : Block :=
  #v[sigma[0], sigma[1], sigma[2], sigma[3],
     key[0], key[1], key[2], key[3],
     key[4], key[5], key[6], key[7],
     low c, high c, nonce[0], nonce[1]]

/-- FEED_FORWARD (R412): sixteen independent wrapping additions. -/
def feedForward (x s : Block) : Block := Vector.zipWith (· + ·) x s

/-- SERIALIZE (R413). -/
def serialize (z : Block) : List Byte := z.toList.flatMap bytesLe

/-- BLOCK (R416): 64 bytes of keystream. -/
def block (key : KeyWords) (nonce : NonceWords) (c : BitVec 64) : List Byte :=
  let s := initState key nonce c
  serialize (feedForward (permute s) s)

/-! ### One lane of a half-round -/

/-- Four positions of the working state. -/
structure Group where
  a : Fin 16
  b : Fin 16
  c : Fin 16
  d : Fin 16
  deriving DecidableEq, Repr

/-- The index groups of R404 and R405, operand order as listed there. -/
def group : Half → Fin 4 → Group
  | .column, 0 => ⟨0, 4, 8, 12⟩
  | .column, 1 => ⟨1, 5, 9, 13⟩
  | .column, 2 => ⟨2, 6, 10, 14⟩
  | .column, 3 => ⟨3, 7, 11, 15⟩
  | .diagonal, 0 => ⟨0, 5, 10, 15⟩
  | .diagonal, 1 => ⟨1, 6, 11, 12⟩
  | .diagonal, 2 => ⟨2, 7, 8, 13⟩
  | .diagonal, 3 => ⟨3, 4, 9, 14⟩

/-- One quarter-round on one group of the working state, its four words replaced in place (R407). -/
def qrLane (h : Half) (i : Fin 4) (x : Block) : Block :=
  let g := group h i
  let r := qr x[g.a] x[g.b] x[g.c] x[g.d]
  (((x.set g.a r.a).set g.b r.b).set g.c r.c).set g.d r.d

/-! ### The registers -/

namespace Datapath

/-- QR on one lane of `X` (R402). -/
def qr (h : Half) (i : Fin 4) (d : Datapath) : Datapath := { d with x := qrLane h i d.x }

/-- `X <- COLUMN_ROUND(X)` (R404). -/
def columnRound (d : Datapath) : Datapath := { d with x := Machine.columnRound d.x }

/-- `X <- DIAGONAL_ROUND(X)` (R405). -/
def diagonalRound (d : Datapath) : Datapath := { d with x := Machine.diagonalRound d.x }

/-- `X <- DOUBLE_ROUND(X)` (R406). -/
def doubleRound (d : Datapath) : Datapath := d.columnRound.diagonalRound

/-- One step of the round pipeline (R409): the half-round that `RND` selects, and `RND` moves on; none once `RND = 20`. -/
def roundStep (d : Datapath) : Datapath :=
  if h : d.rnd.val < Config.rounds then
    let d' := if d.rnd.val % 2 = 0 then d.columnRound else d.diagonalRound
    { d' with rnd := ⟨d.rnd.val + 1, Nat.succ_lt_succ h⟩ }
  else d

/-- `m` steps of the round pipeline. -/
def roundSteps : Nat → Datapath → Datapath
  | 0, d => d
  | m + 1, d => roundSteps m d.roundStep

/-- PERMUTE as the hardware performs it (R409): twenty pipeline steps from `RND = 0` (log 8). -/
def permute (d : Datapath) : Datapath := roundSteps Config.rounds { d with rnd := 0 }

/-- `S <- INIT_STATE(K, N, c)` (R410). -/
def initState (key : KeyWords) (nonce : NonceWords) (c : BitVec 64) (d : Datapath) : Datapath :=
  { d with s := Machine.initState key nonce c }

/-- `X <- S` (R411). -/
def load (d : Datapath) : Datapath := { d with x := d.s }

/-- `Z[i] <- X[i] +32 S[i]` (R412). -/
def feedForward (d : Datapath) : Datapath := { d with z := Machine.feedForward d.x d.s }

/-- The bytes of `Z` (R413). -/
def serialize (d : Datapath) : Datapath := { d with bytes := Machine.serialize d.z }

/-- BLOCK's lines in order (R416). -/
def block (key : KeyWords) (nonce : NonceWords) (c : BitVec 64) (d : Datapath) : Datapath :=
  (d.initState key nonce c).load.permute.feedForward.serialize

/-- `S`, `X` and `RND` once they are dead (R118, R414; 93 I1): free values, fresh for each `tick` (log 3). -/
def dead (tick : Nat) (d : Datapath) : Datapath :=
  { d with s := Config.deadS tick, x := Config.deadX tick, rnd := Config.deadRnd tick }

end Datapath

end Sys2Proof.Machine
end

