-- ==== Sys2Proof/Machine/Flags.lean ====
section
/-! DEFINITION. The status fields: the code of an error (R601), the STATUS word (R124), and the operations that set and clear
the sticky fields (R114, R115). -/

namespace Sys2Proof.Machine

/-- The 3-bit code of R601. -/
def errBits : ErrCode → BitVec 3
  | .none => 0
  | .invalidKeySize => 1
  | .invalidNonceSize => 2
  | .notConfigured => 3
  | .illegalCommand => 4
  | .illegalLength => 5
  | .busyOverrun => 6

namespace State

/-- `STATUS.LEVEL` (R112, R124): `zext_6(len(PEND))` (log 18). -/
def level (s : State) : BitVec 6 := BitVec.ofNat 6 s.pend.length

/-- `STATUS.ERR` (R124). -/
def err (s : State) : Bool := s.errCode != .none

/-- The value a read of STATUS returns (R124, R552), field by field from bit 31 down. -/
def statusWord (s : State) : Word :=
  0#6 ++ s.nonceMask ++ s.keyMask ++ 0#2 ++ s.level ++ 0#1 ++ errBits s.errCode ++ BitVec.ofBool s.err ++
    BitVec.ofBool s.wrapped ++ BitVec.ofBool s.configured ++ BitVec.ofBool s.busy

/-- `WRAPPED <- 0` when the written bit is 1 (R553, W1C). -/
def clearWrapped (bit : Bool) (s : State) : State := { s with wrapped := s.wrapped && !bit }

/-- `ERR_CODE <- 0` when the written bit is 1 (R553): the host's answer to an error, in place of a trap return (R612). -/
def clearErr (bit : Bool) (s : State) : State := { s with errCode := if bit then .none else s.errCode }

end State

end Sys2Proof.Machine
end

