-- ==== Sys2Proof/Machine/Ops.lean ====
section
/-! DEFINITION. The shared operations: raising an error (R602), completing the command in flight (R575), issuing one (R556),
a read and an ignored write at the port, the block run by the engine (R416), and the keystream procedure (R455 to R461). -/

namespace Sys2Proof.Machine

namespace State

/-- `raise CmdError(code)` (R14, R602), the CORE's taking of an exception: `ERR_CODE <- code` and nothing else; `BUSY <- 0`
comes with the completion, as for every command. -/
def raise (code : ErrCode) (s : State) : State := { s with errCode := code }

/-- `BUSY <- 0` (R575): the command in flight is done, its record dead (R117). -/
def complete (s : State) : State := { s with inflight := none }

/-- What `WR_CTRL` copies at issue (R117, R556). -/
def capture (cmd : Word) (s : State) : Inflight :=
  { cmd := cmd, din := s.din, key := s.keyStage, nonce := s.nonceStage, kmask := s.keyMask, nmask := s.nonceMask
    ctr := s.ctrStage }

/-- `INFLIGHT <- ...; BUSY <- 1` (R556). -/
def issue (cmd : Word) (s : State) : State := { s with inflight := some (s.capture cmd) }

/-- A read access returns `v` (R551) and changes no state of the CORE (R208). -/
def read (v : Word) (s : State) : State := { s with rdata := v }

/-- BLOCK (R416) on the datapath registers; when it returns, `S`, `X` and `RND` are dead (R414). -/
def runBlock (key : KeyWords) (nonce : NonceWords) (c : BitVec 64) (s : State) : State :=
  { s with dp := (s.dp.block key nonce c).dead s.tick, tick := s.tick + 1 }

/-- INCREMENT (R459): the counter wraps modulo 2^64 and the wrap is recorded. -/
def increment (s : State) : State :=
  { s with wrapped := s.wrapped || s.c == BitVec.allOnes 64, c := s.c + 1 }

/-- Append the block just run to `PEND` (R457). -/
def appendBlock (s : State) : State := { s with pend := s.pend ++ s.dp.bytes }

/-- REFILL (R457): one block, only when `PEND` holds fewer than `n` bytes; the block uses the counter before the increment. -/
def refill (n : Nat) (s : State) : State :=
  if s.pend.length < n then (s.runBlock s.k s.n s.c).appendBlock.increment else s

/-- TAKE (R458), the bytes consumed. -/
def taken (n : Nat) (s : State) : List Byte := s.pend.take n

/-- TAKE (R458), what remains. -/
def drop (n : Nat) (s : State) : State := { s with pend := s.pend.drop n }

end State

/-- One lane of MUX (R460): `d` exclusive-or keystream below `n`, zero at or above it (R461). REFILL has left at least `n`
bytes, so the default byte is never reached (log 19). -/
def muxLane (n : Nat) (d : Word) (t : List Byte) (i : Nat) : Byte :=
  if i < n then lane d i ^^^ t.getD i 0 else 0

/-- MUX (R460), lane 0 from the oldest byte. -/
def mux (n : Nat) (d : Word) (t : List Byte) : Word :=
  le32 (muxLane n d t 0) (muxLane n d t 1) (muxLane n d t 2) (muxLane n d t 3)

namespace State

/-- STREAM (R455): REFILL, TAKE, MUX in that order, `d` the data word (0 for KEYSTREAM). -/
def stream (n : Nat) (d : Word) (s : State) : State :=
  let r := s.refill n
  { r.drop n with dout := mux n d (r.taken n) }

/-- The checks of R450 in the order of R610, then the procedure. -/
def streamCommand (len : BitVec 3) (d : Word) (s : State) : State :=
  if Config.lenMax < len.toNat then s.raise .illegalLength
  else if s.configured = false then s.raise .notConfigured
  else s.stream len.toNat d

end State

/-- The completion of the command in flight (R575): `body` from its record and the state, then `BUSY <- 0`. It is enabled
exactly when `BUSY = 1`; with no command in flight there is nothing to complete and nothing happens (log 6). -/
def completing (s : State) (body : Inflight → State → State) : Result :=
  match s.inflight with
  | none => .next s
  | some f => .next (body f s).complete

end Sys2Proof.Machine
end

