-- ==== Sys2Proof/Machine/Block.lean ====
section
/-! DEFINITION. The datapath rows (`40_block_function.md` R400 to R416) as operations of the machine: they write only `S`, `X`
and `RND` (R400) and the model's two result fields (log 5). -/

namespace Sys2Proof.Machine

/-- QR (R402) on one lane of the working state. -/
def execQr (half : Half) (lane : Fin 4) (s : State) : Result := .next { s with dp := s.dp.qr half lane }

/-- COLUMN_ROUND (R404). -/
def execColumnRound (s : State) : Result := .next { s with dp := s.dp.columnRound }

/-- DIAGONAL_ROUND (R405). -/
def execDiagonalRound (s : State) : Result := .next { s with dp := s.dp.diagonalRound }

/-- DOUBLE_ROUND (R406). -/
def execDoubleRound (s : State) : Result := .next { s with dp := s.dp.doubleRound }

/-- PERMUTE (R408), as the pipeline of R409. -/
def execPermute (s : State) : Result := .next { s with dp := s.dp.permute }

/-- INIT_STATE (R410). -/
def execInitState (key : KeyWords) (nonce : NonceWords) (ctr : BitVec 64) (s : State) : Result :=
  .next { s with dp := s.dp.initState key nonce ctr }

/-- FEED_FORWARD (R412). -/
def execFeedForward (s : State) : Result := .next { s with dp := s.dp.feedForward }

/-- SERIALIZE (R413). -/
def execSerialize (s : State) : Result := .next { s with dp := s.dp.serialize }

/-- BLOCK (R416). -/
def execBlock (key : KeyWords) (nonce : NonceWords) (ctr : BitVec 64) (s : State) : Result :=
  .next (s.runBlock key nonce ctr)

end Sys2Proof.Machine
end

