-- ==== Sys2Proof/Machine/Control.lean ====
section
/-! DEFINITION. The completions of the control commands (`42_control_commands.md`) and of an illegal word (R607). -/

namespace Sys2Proof.Machine

/-- NOP (R501): nothing but the completion. -/
def execNop (s : State) : Result := completing s fun _ s => s

/-- The body of INIT (R502): the size checks, key first (R503, R610), then the engine is built from the copies made at issue. -/
def initBody (f : Inflight) (s : State) : State :=
  if f.kmask ≠ 0xFF then s.raise .invalidKeySize
  else if f.nmask ≠ 0x3 then s.raise .invalidNonceSize
  else { s with k := f.key, n := f.nonce, c := f.ctr, pend := [], wrapped := false, configured := true }

/-- INIT (R502). -/
def execInit (s : State) : Result := completing s initBody

/-- The body of SET_COUNTER (R506), variant (b) of the source (R508): the counter really seeks. -/
def setCounterBody (f : Inflight) (s : State) : State :=
  if s.configured = false then s.raise .notConfigured else { s with c := f.ctr, pend := [] }

/-- SET_COUNTER (R506). -/
def execSetCounter (s : State) : Result := completing s setCounterBody

/-- A word of the ILLEGAL row (R307, R607): it completes with ILLEGAL_COMMAND, whatever the word. -/
def execIllegal (_word : Word) (s : State) : Result := completing s fun _ s => s.raise .illegalCommand

end Sys2Proof.Machine
end

