-- ==== Sys2Proof/Machine/Stream.lean ====
section
/-! DEFINITION. The completions of the stream commands (`41_stream_commands.md`). -/

namespace Sys2Proof.Machine

/-- KEYSTREAM n (R452): the procedure with no data; a `LEN` of 5..7 is ILLEGAL_LENGTH (R608). -/
def execKeystream (len : BitVec 3) (s : State) : Result := completing s fun _ s => s.streamCommand len 0

/-- CRYPT n (R453), encryption and decryption alike (R454): the procedure with `INFLIGHT.din`. -/
def execCrypt (len : BitVec 3) (s : State) : Result := completing s fun f s => s.streamCommand len f.din

end Sys2Proof.Machine
end

