-- ==== Sys2Proof/Machine/Engine.lean ====
section
/-! DEFINITION. The engine agent's one step (R575). -/

namespace Sys2Proof.Machine

/-- ENGINE_STEP (R575): decode the command in flight (R308) and perform it; `BUSY <- 0` in every case. Not enabled while
`BUSY = 0`: no step is taken (log 6). -/
def execEngineStep (s : State) : Result :=
  match s.inflight with
  | none => .next s
  | some f =>
    match decodeCommand f.cmd with
    | .illegal code => .next (s.raise code).complete
    | .nop => execNop s
    | .init => execInit s
    | .setCounter => execSetCounter s
    | .keystream n => execKeystream n s
    | .crypt n => execCrypt n s

end Sys2Proof.Machine
end

