-- ==== Sys2Proof/Machine/Registers.lean ====
section
/-! DEFINITION. The host's accesses (`43_register_access.md` R552 to R572), one meaning per BUS row. -/

namespace Sys2Proof.Machine

/-- R556: issue a command, or drop it with BUSY_OVERRUN (R603). -/
def execWrCtrl (wdata : Word) (s : State) : Result :=
  if s.busy then .next (s.raise .busyOverrun) else .next (s.issue wdata)

/-- R557. -/
def execRdCtrl (s : State) : Result := .next (s.read 0)

/-- R552. -/
def execRdStatus (s : State) : Result := .next (s.read s.statusWord)

/-- R553: bits 2 and 3 are write-one-to-clear, every other bit is ignored. -/
def execWrStatus (wdata : Word) (s : State) : Result :=
  .next ((s.clearWrapped (wdata.getLsbD 2)).clearErr (wdata.getLsbD 3))

/-- R554. -/
def execRdDin (s : State) : Result := .next (s.read s.din)

/-- R555. -/
def execWrDin (wdata : Word) (s : State) : Result := .next { s with din := wdata }

/-- R558. -/
def execRdDout (s : State) : Result := .next (s.read s.dout)

/-- R559: ignored. -/
def execWrDout (_wdata : Word) (s : State) : Result := .next s

/-- R560. -/
def execRdCtrLo (s : State) : Result := .next (s.read (low s.c))

/-- R561. -/
def execRdCtrHi (s : State) : Result := .next (s.read (high s.c))

/-- R562: ignored. -/
def execWrCtr (_h : Fin 2) (_wdata : Word) (s : State) : Result := .next s

/-- R563. -/
def execRdCtrstgLo (s : State) : Result := .next (s.read (low s.ctrStage))

/-- R564. -/
def execRdCtrstgHi (s : State) : Result := .next (s.read (high s.ctrStage))

/-- R565. -/
def execWrCtrstgLo (wdata : Word) (s : State) : Result :=
  .next { s with ctrStage := halves (high s.ctrStage) wdata }

/-- R566. -/
def execWrCtrstgHi (wdata : Word) (s : State) : Result :=
  .next { s with ctrStage := halves wdata (low s.ctrStage) }

/-- R567. -/
def execWrKey (k : Fin 8) (wdata : Word) (s : State) : Result :=
  .next { s with keyStage := s.keyStage.set k wdata, keyMask := setBit s.keyMask k }

/-- R568: neither `KEY_STAGE` nor `K` is ever readable. -/
def execRdKey (_k : Fin 8) (s : State) : Result := .next (s.read 0)

/-- R569. -/
def execWrNonce (n : Fin 2) (wdata : Word) (s : State) : Result :=
  .next { s with nonceStage := s.nonceStage.set n wdata, nonceMask := setBit s.nonceMask n }

/-- R570: the staging word. -/
def execRdNonce (n : Fin 2) (s : State) : Result := .next (s.read s.nonceStage[n])

/-- R571. -/
def execRdUnmapped (_a : BitVec 6) (s : State) : Result := .next (s.read 0)

/-- R572: ignored. -/
def execWrUnmapped (_a : BitVec 6) (_wdata : Word) (s : State) : Result := .next s

end Sys2Proof.Machine
end

