-- ==== Sys2Proof/Machine/Dispatch.lean ====
section
/-! DEFINITION. One arm per constructor of Instr: its row's meaning. -/

namespace Sys2Proof.Machine

/-- The meaning of one operation. -/
def exec (i : Instr) (s : State) : Host.Outcome State Fault Refusal :=
  match i with
  -- BUS rows
  | .wrCtrl d => Sys2Proof.Machine.execWrCtrl d s
  | .rdCtrl => Sys2Proof.Machine.execRdCtrl s
  | .rdStatus => Sys2Proof.Machine.execRdStatus s
  | .wrStatus d => Sys2Proof.Machine.execWrStatus d s
  | .rdDin => Sys2Proof.Machine.execRdDin s
  | .wrDin d => Sys2Proof.Machine.execWrDin d s
  | .rdDout => Sys2Proof.Machine.execRdDout s
  | .wrDout d => Sys2Proof.Machine.execWrDout d s
  | .rdCtrLo => Sys2Proof.Machine.execRdCtrLo s
  | .rdCtrHi => Sys2Proof.Machine.execRdCtrHi s
  | .wrCtr h d => Sys2Proof.Machine.execWrCtr h d s
  | .rdCtrstgLo => Sys2Proof.Machine.execRdCtrstgLo s
  | .rdCtrstgHi => Sys2Proof.Machine.execRdCtrstgHi s
  | .wrCtrstgLo d => Sys2Proof.Machine.execWrCtrstgLo d s
  | .wrCtrstgHi d => Sys2Proof.Machine.execWrCtrstgHi d s
  | .wrKey k d => Sys2Proof.Machine.execWrKey k d s
  | .rdKey k => Sys2Proof.Machine.execRdKey k s
  | .wrNonce n d => Sys2Proof.Machine.execWrNonce n d s
  | .rdNonce n => Sys2Proof.Machine.execRdNonce n s
  | .rdUnmapped a => Sys2Proof.Machine.execRdUnmapped a s
  | .wrUnmapped a d => Sys2Proof.Machine.execWrUnmapped a d s
  -- CMD rows
  | .nop => Sys2Proof.Machine.execNop s
  | .init => Sys2Proof.Machine.execInit s
  | .setCounter => Sys2Proof.Machine.execSetCounter s
  | .keystream n => Sys2Proof.Machine.execKeystream n s
  | .crypt n => Sys2Proof.Machine.execCrypt n s
  | .illegal w => Sys2Proof.Machine.execIllegal w s
  -- INTERNAL rows
  | .engineStep => Sys2Proof.Machine.execEngineStep s
  | .qr h l => Sys2Proof.Machine.execQr h l s
  | .columnRound => Sys2Proof.Machine.execColumnRound s
  | .diagonalRound => Sys2Proof.Machine.execDiagonalRound s
  | .doubleRound => Sys2Proof.Machine.execDoubleRound s
  | .permute => Sys2Proof.Machine.execPermute s
  | .initState k n c => Sys2Proof.Machine.execInitState k n c s
  | .feedForward => Sys2Proof.Machine.execFeedForward s
  | .serialize => Sys2Proof.Machine.execSerialize s
  | .block k n c => Sys2Proof.Machine.execBlock k n c s

end Sys2Proof.Machine
end

