-- ==== Sys2Proof/Machine/Port.lean ====
section
/-! DEFINITION. What one event of the outside does (R550, R551, R700 to R702), and how a code is presented to the machine. -/

namespace Sys2Proof.Machine

/-- The access a selector and value stand for (R300); the ignored `addr[1:0]` are 0 (R206). -/
def Access.ofSelector (sel : BitVec 7) (wdata : Word) : Access :=
  { we := sel.getLsbD 6, addr := sel.extractLsb' 0 6 ++ 0#2, wdata := wdata }

/-- The BUS row an access selects (R551). -/
def Access.instr (a : Access) : Instr := decodeBus (selector a.we a.addr) a.wdata

namespace State

/-- What a read presented under `rst` returns: 0 (R702). A write returns nothing. -/
def rdataUnderReset (presented : Option Access) (s : State) : Word :=
  match presented with
  | none => s.rdata
  | some a => if a.we then s.rdata else 0

/-- One edge with `rst = 1` (R700 to R702): every register takes its reset value, the command in flight is discarded, the
access presented is ignored, and `S`, `X`, `RND` are left unspecified (log 3). What is still to come stays to come. -/
def resetEdge (presented : Option Access) (s : State) : State :=
  { State.reset with
    dp := State.reset.dp.dead s.tick, tick := s.tick + 1, rdata := s.rdataUnderReset presented, input := s.input }

/-- A code presented to the machine, so that the next step runs it: an access at the port, or a command issued (R556) and the
engine's turn to complete it (R575). -/
def present (code : Code) (s : State) : State :=
  match code with
  | .bus sel wdata => { s with input := .access (Access.ofSelector sel wdata) :: s.input }
  | .cmd word => { s.issue word with input := .engine :: s.input }

end State

/-- What one event does. -/
def execEvent (e : Event) (s : State) : Result :=
  match e with
  | .access a => exec a.instr s
  | .engine => exec .engineStep s
  | .reset presented => .next (s.resetEdge presented)
  | .idle => .next s

end Sys2Proof.Machine
end

