-- ==== Sys2Proof/Machine/Step.lean ====
section
/-! DEFINITION. One step of the CORE: the next event of the outside; with none left, the engine's turn (R211, R722; log 1). -/

namespace Sys2Proof.Machine

/-- One step. A command in flight completes once the schedule is exhausted, if not before (weak fairness, R722). -/
def step (s : State) : Host.Outcome State Fault Refusal :=
  match s.input with
  | [] => execEvent .engine s
  | e :: rest => execEvent e { s with input := rest }

/-- `s` with the operation in `nbits` bits of value `w` presented, so that the next step runs it (log 12). -/
def State.withFetchWord (s : State) (nbits w : Nat) : State :=
  match readCode nbits w with
  | .ok code => s.present code
  | .error _ => s

end Sys2Proof.Machine
end

