-- ==== Sys2Proof/Machine/HostProgram.lean ====
section
/-! DEFINITION. Host programs: the lines and pseudo-instructions of R310 and R311 as the accesses they stand for, and the
host loops that issue a command, let it complete and read its result. They are the host's, not the CORE's (92 D30): no
definition of the machine uses them. -/

namespace Sys2Proof.Machine

/-- The register names of R310. -/
inductive Reg where
  | ctrl
  | status
  | din
  | dout
  | ctrLo
  | ctrHi
  | ctrStageLo
  | ctrStageHi
  | key (k : Fin 8)
  | nonce (n : Fin 2)
  | at (offset : BitVec 8)
  deriving DecidableEq, Repr

/-- The byte offset of a register (R123). -/
def Reg.offset : Reg → BitVec 8
  | .ctrl => 0x00
  | .status => 0x04
  | .din => 0x08
  | .dout => 0x0C
  | .ctrLo => 0x10
  | .ctrHi => 0x14
  | .ctrStageLo => 0x18
  | .ctrStageHi => 0x1C
  | .key k => BitVec.ofNat 8 (0x20 + 4 * k.val)
  | .nonce n => BitVec.ofNat 8 (0x40 + 4 * n.val)
  | .at offset => offset

/-- `wr REG, imm32` (R310). -/
def wr (r : Reg) (imm : Word) : Event := .access { we := true, addr := r.offset, wdata := imm }

/-- `rd REG` (R310). -/
def rd (r : Reg) : Event := .access { we := false, addr := r.offset, wdata := 0 }

/-- The lines of a host program (R310) and its pseudo-instructions (R311). `poll` and `seek` are told how many reads find
`BUSY = 1` before the engine's turn comes. -/
inductive Line where
  | wr (r : Reg) (imm : Word)
  | rd (r : Reg)
  | cmdNop
  | cmdInit
  | cmdSetctr
  | cmdKs (n : Fin 5)
  | cmdCrypt (n : Fin 5)
  | cmdEncrypt (n : Fin 5)
  | cmdDecrypt (n : Fin 5)
  | poll (tries : Nat)
  | clrerr
  | clrwrap
  | loadkey (key : KeyWords)
  | loadnonce (nonce : NonceWords)
  | loadctr (c : BitVec 64)
  | seek (c : BitVec 64) (tries : Nat)
  deriving DecidableEq, Repr

/-- `wr CTRL` with a command word's fields (R302, R310). -/
def cmd (op : BitVec 4) (len : BitVec 3) : Event := wr .ctrl (commandWord op len)

/-- The reads of `poll` (R311): some that find the engine busy, its turn, and the one that finds it done. -/
def pollEvents (tries : Nat) : List Event := List.replicate tries (rd .status) ++ [.engine, rd .status]

/-- `loadctr c` (R311). -/
def loadctrEvents (c : BitVec 64) : List Event := [wr .ctrStageLo (low c), wr .ctrStageHi (high c)]

/-- What a line puts on the port (R310, R311). -/
def Line.events : Line → List Event
  | .wr r imm => [Machine.wr r imm]
  | .rd r => [Machine.rd r]
  | .cmdNop => [cmd 0 0]
  | .cmdInit => [cmd 1 0]
  | .cmdSetctr => [cmd 2 0]
  | .cmdKs n => [cmd 3 (BitVec.ofNat 3 n.val)]
  | .cmdCrypt n => [cmd 4 (BitVec.ofNat 3 n.val)]
  | .cmdEncrypt n => [cmd 4 (BitVec.ofNat 3 n.val)]
  | .cmdDecrypt n => [cmd 4 (BitVec.ofNat 3 n.val)]
  | .poll tries => pollEvents tries
  | .clrerr => [Machine.wr .status 8]
  | .clrwrap => [Machine.wr .status 4]
  | .loadkey key => (List.finRange 8).map fun k => Machine.wr (.key k) key[k]
  | .loadnonce nonce => (List.finRange 2).map fun n => Machine.wr (.nonce n) nonce[n]
  | .loadctr c => loadctrEvents c
  | .seek c tries => loadctrEvents c ++ [cmd 2 0] ++ pollEvents tries

/-- A host program's accesses, in its order (R310). -/
def programEvents (lines : List Line) : List Event := lines.flatMap Line.events

/-- The state an outcome carries; the CORE never stops (R600), so there is always one. -/
def Result.state (s : State) : Result → State
  | .next t => t
  | .fault r => nomatch r
  | .refused _ => s

/-- One step in which the outside brings `e`. -/
def bring (e : Event) (s : State) : State := Result.state s (step { s with input := [e] })

/-- The outside brings each of `es` in turn. -/
def bringAll (es : List Event) (s : State) : State := es.foldl (fun s e => bring e s) s

/-- One command carried through by a host that polls: issue, completion, `rd DOUT` (R710). -/
def transact (op : BitVec 4) (len : BitVec 3) (s : State) : State := bringAll [cmd op len, .engine, rd .dout] s

/-- The first `n` output bytes a host has read (R460). -/
def output (n : Nat) (s : State) : List Byte := (bytesLe s.rdata).take n

/-- `cmd ks n` for each `n` in turn (R465): the bytes read, and the state left. -/
def keystreamProgram : List (Fin 5) → State → List Byte × State
  | [], s => ([], s)
  | n :: ns, s =>
    let t := transact 3 (BitVec.ofNat 3 n.val) s
    let r := keystreamProgram ns t
    (output n.val t ++ r.1, r.2)

/-- Up to four data bytes as a value for `DIN`, byte `i` in lane `i` (R106, R204). -/
def packLanes (bytes : List Byte) : Word :=
  le32 (bytes.getD 0 0) (bytes.getD 1 0) (bytes.getD 2 0) (bytes.getD 3 0)

/-- `wr DIN` and `cmd crypt n` for each chunk of at most four bytes in turn (R453, R465): the bytes read, and the state left. -/
def cryptProgram : List (List Byte) → State → List Byte × State
  | [], s => ([], s)
  | chunk :: chunks, s =>
    let t := transact 4 (BitVec.ofNat 3 chunk.length) (bring (wr .din (packLanes chunk)) s)
    let r := cryptProgram chunks t
    (output chunk.length t ++ r.1, r.2)

end Sys2Proof.Machine
end

