-- ==== Sys2Proof/Machine/Platform.lean ====
section
/-! DEFINITION. Several COREs on one platform (R616, 93 I10): each a whole copy of the state, with its own port; nothing is
shared. -/

namespace Sys2Proof.Machine

/-- The platform's COREs. -/
abbrev Platform := List State

/-- Every CORE just out of reset; `INSTANCES` of them (R8). -/
def Platform.reset : Platform := List.replicate Config.cores State.reset

/-- CORE `i` takes a step; every other CORE stays as it is (R616). -/
def Platform.step (i : Nat) (p : Platform) : Host.Outcome Platform Fault Refusal :=
  match p[i]? with
  | none => .next p
  | some s =>
    match Machine.step s with
    | .next t => .next (p.set i t)
    | .fault r => .fault r
    | .refused r => .refused r

end Sys2Proof.Machine
end

