-- ==== Sys2Proof/Machine/Timing.lean ====
section
/-! DEFINITION. The informative latencies of R720 and R721. Time is not state (R722): no step reads them. -/

namespace Sys2Proof.Machine

namespace State

/-- The command in flight generates a block: a KEYSTREAM or CRYPT that passes its checks and finds fewer than `n` bytes. -/
def willRefill (s : State) : Bool :=
  match s.inflight with
  | none => false
  | some f =>
    match decodeCommand f.cmd with
    | .keystream n => s.configured && s.pend.length < n.toNat
    | .crypt n => s.configured && s.pend.length < n.toNat
    | .illegal _ | .nop | .init | .setCounter => false

/-- Clock cycles from issue to completion of the command in flight (R720, R721). -/
def latency (s : State) : Nat := if s.willRefill then Config.tBlock else Config.tShort

end State

end Sys2Proof.Machine
end

