-- ==== Sys2Proof/Safety.lean ====
section
/-! DEFINITION. What the claims call a safe state: the invariant of the registers (R102, R104, R108 to R114, R463), and the
keystream position a run is at (R451, R464). -/

namespace Sys2Proof.Machine

/-- Mask `a` holds no bit that mask `b` lacks. -/
def maskLe {w : Nat} (a b : BitVec w) : Prop := a &&& b = a

/-- What holds of every state a run from reset reaches. -/
structure State.Inv (s : State) : Prop where
  /-- R463: between commands `len(PEND) <= 63`. -/
  level : s.pend.length ≤ Config.pendMax
  /-- R101, R102: a key word never written since reset holds its reset value. -/
  keyStage : ∀ k : Fin 8, s.keyMask.getLsbD k = false → s.keyStage[k] = 0
  /-- R103, R104: the same of a nonce word. -/
  nonceStage : ∀ n : Fin 2, s.nonceMask.getLsbD n = false → s.nonceStage[n] = 0
  /-- R102, R104, R117: the masks only grow until reset, so a command in flight copied no more than they hold now. -/
  masks : ∀ f, s.inflight = some f → maskLe f.kmask s.keyMask ∧ maskLe f.nmask s.nonceMask
  /-- R113, R502, R505: a configured engine was given a whole key and a whole nonce since reset. -/
  whole : s.configured = true → s.keyMask = 0xFF ∧ s.nonceMask = 0x3
  /-- R108 to R114, R703: an engine no INIT has configured is as reset left it. -/
  blank : s.configured = false →
    s.k = KeyWords.zero ∧ s.n = NonceWords.zero ∧ s.c = 0 ∧ s.pend = [] ∧ s.dout = 0 ∧ s.wrapped = false

/-- A place in a keystream: the key, nonce and counter the last INIT or SET_COUNTER left, and the bytes consumed since
(R464). -/
structure Position where
  key : KeyWords
  nonce : NonceWords
  start : BitVec 64
  total : Nat
  deriving DecidableEq, Repr

/-- Byte `j` of `KS(K, N, c0)` (R451). -/
def ksByte (key : KeyWords) (nonce : NonceWords) (c0 : BitVec 64) (j : Nat) : Byte :=
  (block key nonce (c0 + BitVec.ofNat 64 (j / 64))).getD (j % 64) 0

/-- Bytes `i` to `i + m - 1` of `KS(K, N, c0)`. -/
def ksBytes (key : KeyWords) (nonce : NonceWords) (c0 : BitVec 64) (i m : Nat) : List Byte :=
  (List.range m).map fun j => ksByte key nonce c0 (i + j)

/-- `ceil(T / 64)` (R464): the blocks generated for `T` bytes. -/
def blocksFor (t : Nat) : Nat := (t + 63) / 64

/-- R464's four facts about a configured engine at a position. -/
structure AtPosition (p : Position) (s : State) : Prop where
  configured : s.configured = true
  key : s.k = p.key
  nonce : s.n = p.nonce
  counter : s.c = p.start + BitVec.ofNat 64 (blocksFor p.total)
  buffer : s.pend = ksBytes p.key p.nonce p.start p.total (64 * blocksFor p.total - p.total)

/-- The position of a state that may be unconfigured. -/
def AtPositionOpt : Option Position → State → Prop
  | none, s => s.configured = false
  | some p, s => AtPosition p s

/-- The position after the completion of command `f` (R464): a successful INIT or SET_COUNTER starts one, a successful
KEYSTREAM or CRYPT moves it by its length, a failing command leaves it. -/
def positionAfter (f : Inflight) (p : Option Position) : Option Position :=
  match decodeCommand f.cmd with
  | .init => if f.kmask = 0xFF ∧ f.nmask = 0x3 then some ⟨f.key, f.nonce, f.ctr, 0⟩ else p
  | .setCounter => p.map fun q => { q with start := f.ctr, total := 0 }
  | .keystream n => p.map fun q => { q with total := q.total + n.toNat }
  | .crypt n => p.map fun q => { q with total := q.total + n.toNat }
  | .nop => p
  | .illegal _ => p

/-- The position after one step (R464): accesses and idle cycles leave it, `rst` ends it. -/
def nextPosition (s : State) (p : Option Position) : Option Position :=
  match s.input with
  | .access _ :: _ => p
  | .idle :: _ => p
  | .reset _ :: _ => none
  | .engine :: _ => s.inflight.elim p (positionAfter · p)
  | [] => s.inflight.elim p (positionAfter · p)

/-- Every register at the reset value the spec gives it (R101 to R117, R700). -/
structure ArchReset (s : State) : Prop where
  keyStage : s.keyStage = KeyWords.zero
  keyMask : s.keyMask = 0
  nonceStage : s.nonceStage = NonceWords.zero
  nonceMask : s.nonceMask = 0
  ctrStage : s.ctrStage = 0
  din : s.din = 0
  dout : s.dout = 0
  k : s.k = KeyWords.zero
  n : s.n = NonceWords.zero
  c : s.c = 0
  pend : s.pend = []
  configured : s.configured = false
  wrapped : s.wrapped = false
  errCode : s.errCode = .none
  busy : s.inflight = none

/-- The next step is the engine's turn (R211, R722). -/
def State.engineTurn (s : State) : Prop := s.input = [] ∨ ∃ rest, s.input = .engine :: rest

/-- The next step is an access that selects row `i` (R551). -/
def State.accessTurn (i : Instr) (s : State) : Prop := ∃ a rest, s.input = .access a :: rest ∧ a.instr = i

/-- The next step is a `rst` edge (R700). -/
def State.resetTurn (s : State) : Prop := ∃ p rest, s.input = .reset p :: rest

/-- The next step completes an INIT that passes its checks, with record `f` (R502). -/
def State.initCompletes (f : Inflight) (s : State) : Prop :=
  s.engineTurn ∧ s.inflight = some f ∧ decodeCommand f.cmd = .init ∧ f.kmask = 0xFF ∧ f.nmask = 0x3

/-- The next step completes a SET_COUNTER that passes its check, with record `f` (R506). -/
def State.seekCompletes (f : Inflight) (s : State) : Prop :=
  s.engineTurn ∧ s.inflight = some f ∧ decodeCommand f.cmd = .setCounter ∧ s.configured = true

/-- The next step completes a KEYSTREAM or CRYPT of length `m` that passes its checks, with record `f` (R452, R453). -/
def State.streamCompletes (f : Inflight) (m : Nat) (s : State) : Prop :=
  s.engineTurn ∧ s.inflight = some f ∧ s.configured = true ∧
    ∃ n : BitVec 3, n.toNat = m ∧ (decodeCommand f.cmd = .keystream n ∨ decodeCommand f.cmd = .crypt n)

end Sys2Proof.Machine

namespace Sys2Proof

/-- The BUS rows with `WE = 0` (R301): RD_CTRL, RD_STATUS, RD_DIN, RD_DOUT, RD_CTR_LO, RD_CTR_HI, RD_CTRSTG_LO, RD_CTRSTG_HI,
RD_KEY, RD_NONCE, RD_UNMAPPED. -/
def Instr.isRead : Instr → Bool
  | .rdCtrl | .rdStatus | .rdDin | .rdDout | .rdCtrLo | .rdCtrHi | .rdCtrstgLo | .rdCtrstgHi | .rdKey _ | .rdNonce _
  | .rdUnmapped _ => true
  | .wrCtrl _ | .wrStatus _ | .wrDin _ | .wrDout _ | .wrCtr _ _ | .wrCtrstgLo _ | .wrCtrstgHi _ | .wrKey _ _ | .wrNonce _ _
  | .wrUnmapped _ _ | .nop | .init | .setCounter | .keystream _ | .crypt _ | .illegal _ | .engineStep | .qr _ _
  | .columnRound | .diagonalRound | .doubleRound | .permute | .initState _ _ _ | .feedForward | .serialize
  | .block _ _ _ => false

/-- The BUS rows with `WE = 1` other than WR_CTRL (R301): WR_STATUS, WR_DIN, WR_DOUT, WR_CTR, WR_CTRSTG_LO, WR_CTRSTG_HI, WR_KEY,
WR_NONCE, WR_UNMAPPED. -/
def Instr.isPlainWrite : Instr → Bool
  | .wrStatus _ | .wrDin _ | .wrDout _ | .wrCtr _ _ | .wrCtrstgLo _ | .wrCtrstgHi _ | .wrKey _ _ | .wrNonce _ _
  | .wrUnmapped _ _ => true
  | .rdCtrl | .rdStatus | .rdDin | .rdDout | .rdCtrLo | .rdCtrHi | .rdCtrstgLo | .rdCtrstgHi | .rdKey _ | .rdNonce _
  | .rdUnmapped _ | .wrCtrl _ | .nop | .init | .setCounter | .keystream _ | .crypt _ | .illegal _ | .engineStep | .qr _ _
  | .columnRound | .diagonalRound | .doubleRound | .permute | .initState _ _ _ | .feedForward | .serialize
  | .block _ _ _ => false

/-- The rows a host writes operands with (R574): WR_DIN, WR_CTRSTG_LO, WR_CTRSTG_HI, WR_KEY, WR_NONCE. -/
def Instr.isStagingWrite : Instr → Bool
  | .wrDin _ | .wrCtrstgLo _ | .wrCtrstgHi _ | .wrKey _ _ | .wrNonce _ _ => true
  | .rdCtrl | .rdStatus | .rdDin | .rdDout | .rdCtrLo | .rdCtrHi | .rdCtrstgLo | .rdCtrstgHi | .rdKey _ | .rdNonce _
  | .rdUnmapped _ | .wrCtrl _ | .wrStatus _ | .wrDout _ | .wrCtr _ _ | .wrUnmapped _ _ | .nop | .init | .setCounter
  | .keystream _ | .crypt _ | .illegal _ | .engineStep | .qr _ _ | .columnRound | .diagonalRound | .doubleRound | .permute
  | .initState _ _ _ | .feedForward | .serialize | .block _ _ _ => false

/-- The datapath rows (R400): QR, COLUMN_ROUND, DIAGONAL_ROUND, DOUBLE_ROUND, PERMUTE, INIT_STATE, FEED_FORWARD, SERIALIZE,
BLOCK. -/
def Instr.isDatapath : Instr → Bool
  | .qr _ _ | .columnRound | .diagonalRound | .doubleRound | .permute | .initState _ _ _ | .feedForward | .serialize
  | .block _ _ _ => true
  | .rdCtrl | .rdStatus | .rdDin | .rdDout | .rdCtrLo | .rdCtrHi | .rdCtrstgLo | .rdCtrstgHi | .rdKey _ | .rdNonce _
  | .rdUnmapped _ | .wrCtrl _ | .wrStatus _ | .wrDin _ | .wrDout _ | .wrCtr _ _ | .wrCtrstgLo _ | .wrCtrstgHi _
  | .wrKey _ _ | .wrNonce _ _ | .wrUnmapped _ _ | .nop | .init | .setCounter | .keystream _ | .crypt _ | .illegal _
  | .engineStep => false

end Sys2Proof

namespace Sys2Proof.Machine

/-- What a host can come to know of a state by register accesses alone: everything but the key material, the engine's nonce,
the bytes of `PEND`, and the datapath (R617, R568). -/
def State.visible (s : State) : State :=
  { s with
    keyStage := KeyWords.zero, k := KeyWords.zero, n := NonceWords.zero, pend := List.replicate s.pend.length 0
    dp := Datapath.reset, inflight := s.inflight.map fun f => { f with key := KeyWords.zero } }

end Sys2Proof.Machine
end

