-- ==== Sys2Proof/Certificates/Slice0/Obligations.lean ====
section
/-! DEFINITION. The statements for the provers. A docstring names the rule of the spec a statement formalises. -/

open Sys2Proof Sys2Proof.Machine

/-! ## Reads -/

/-- R554, R558, R560, R561, R563, R564, R570: a read returns the register it names, and nothing else of the state changes. -/
def Obligations.ReadsReturnTheNamedRegister : Prop :=
  ∀ s : State,
    exec .rdDin s = .next { s with rdata := s.din } ∧
    exec .rdDout s = .next { s with rdata := s.dout } ∧
    exec .rdCtrLo s = .next { s with rdata := s.c.extractLsb' 0 32 } ∧
    exec .rdCtrHi s = .next { s with rdata := s.c.extractLsb' 32 32 } ∧
    exec .rdCtrstgLo s = .next { s with rdata := s.ctrStage.extractLsb' 0 32 } ∧
    exec .rdCtrstgHi s = .next { s with rdata := s.ctrStage.extractLsb' 32 32 } ∧
    ∀ n : Fin 2, exec (.rdNonce n) s = .next { s with rdata := s.nonceStage[n] }

/-- R557, R568, R571: CTRL, a key register and an unmapped slot read 0, whatever has been written. -/
def Obligations.WriteOnlyAndUnmappedSlotsReadZero : Prop :=
  ∀ s : State,
    exec .rdCtrl s = .next { s with rdata := 0 } ∧
    (∀ k, exec (.rdKey k) s = .next { s with rdata := 0 }) ∧
    ∀ a, exec (.rdUnmapped a) s = .next { s with rdata := 0 }

/-- R552, R124: every field of STATUS stands at its bits. -/
def Obligations.StatusReadShowsEveryField : Prop :=
  ∀ s : State, ∃ w : Word,
    exec .rdStatus s = .next { s with rdata := w } ∧
    w.getLsbD 0 = s.inflight.isSome ∧
    w.getLsbD 1 = s.configured ∧
    w.getLsbD 2 = s.wrapped ∧
    w.getLsbD 3 = decide (s.errCode ≠ .none) ∧
    w.extractLsb' 4 3 = errBits s.errCode ∧
    w.getLsbD 7 = false ∧
    w.extractLsb' 8 6 = BitVec.ofNat 6 s.pend.length ∧
    (s.pend.length ≤ 63 → (w.extractLsb' 8 6).toNat = s.pend.length) ∧
    w.extractLsb' 14 2 = 0 ∧
    w.extractLsb' 16 8 = s.keyMask ∧
    w.extractLsb' 24 2 = s.nonceMask ∧
    w.extractLsb' 26 6 = 0

/-! ## Writes -/

/-- R553: bits 2 and 3 clear WRAPPED and ERR_CODE; nothing else is written. -/
def Obligations.StatusWriteClearsTheStickyFields : Prop :=
  ∀ (d : Word) (s : State),
    exec (.wrStatus d) s = .next
      { s with
        wrapped := if d.getLsbD 2 then false else s.wrapped
        errCode := if d.getLsbD 3 then .none else s.errCode }

/-- R555, R565, R566: DIN and the halves of CTR_STAGE take the written value; the other half stays. -/
def Obligations.DataAndCounterStagingWrites : Prop :=
  ∀ (d : Word) (s : State),
    exec (.wrDin d) s = .next { s with din := d } ∧
    (∃ v : BitVec 64, exec (.wrCtrstgLo d) s = .next { s with ctrStage := v } ∧
      v.extractLsb' 0 32 = d ∧ v.extractLsb' 32 32 = s.ctrStage.extractLsb' 32 32) ∧
    ∃ v : BitVec 64, exec (.wrCtrstgHi d) s = .next { s with ctrStage := v } ∧
      v.extractLsb' 32 32 = d ∧ v.extractLsb' 0 32 = s.ctrStage.extractLsb' 0 32

/-- R567, R101, R102: a key write stores its word, sets its mask bit, and leaves every other word, bit and register. -/
def Obligations.KeyWriteStoresItsWordAndSetsItsMaskBit : Prop :=
  ∀ (k : Fin 8) (d : Word) (s : State), ∃ t : State,
    exec (.wrKey k d) s = .next t ∧
    t.keyStage[k] = d ∧ t.keyMask.getLsbD k = true ∧
    (∀ j : Fin 8, j ≠ k → t.keyStage[j] = s.keyStage[j] ∧ t.keyMask.getLsbD j = s.keyMask.getLsbD j) ∧
    { t with keyStage := s.keyStage, keyMask := s.keyMask } = s

/-- R569, R103, R104: the same of a nonce write. -/
def Obligations.NonceWriteStoresItsWordAndSetsItsMaskBit : Prop :=
  ∀ (n : Fin 2) (d : Word) (s : State), ∃ t : State,
    exec (.wrNonce n d) s = .next t ∧
    t.nonceStage[n] = d ∧ t.nonceMask.getLsbD n = true ∧
    (∀ j : Fin 2, j ≠ n → t.nonceStage[j] = s.nonceStage[j] ∧ t.nonceMask.getLsbD j = s.nonceMask.getLsbD j) ∧
    { t with nonceStage := s.nonceStage, nonceMask := s.nonceMask } = s

/-- R559, R562, R572: a write to DOUT, to a half of the counter or to an unmapped slot changes nothing. -/
def Obligations.IgnoredWritesChangeNothing : Prop :=
  ∀ (d : Word) (s : State),
    exec (.wrDout d) s = .next s ∧
    (∀ h, exec (.wrCtr h d) s = .next s) ∧
    ∀ a, exec (.wrUnmapped a d) s = .next s

/-- R556, R603, R117: an idle CORE takes the command with a copy of every operand; a busy one drops it and records
BUSY_OVERRUN. -/
def Obligations.CommandIssueOrOverrun : Prop :=
  ∀ (w : Word) (s : State),
    (s.inflight = none →
      let copies : Inflight :=
        { cmd := w, din := s.din, key := s.keyStage, nonce := s.nonceStage
          kmask := s.keyMask, nmask := s.nonceMask, ctr := s.ctrStage }
      exec (.wrCtrl w) s = .next { s with inflight := some copies }) ∧
    (∀ f, s.inflight = some f → exec (.wrCtrl w) s = .next { s with errCode := .busyOverrun })

/-! ## Control commands -/

/-- R501: NOP completes with no effect but BUSY falling, configured or not. -/
def Obligations.NopCompletesWithNoEffect : Prop :=
  decodeCommand 0x00000000 = .nop ∧
  ∀ (s : State) (f : Inflight), s.inflight = some f → exec .nop s = .next { s with inflight := none }

/-- R502, R604, R605, R504: INIT checks the key, then the nonce, and builds the engine from the copies; a failing INIT writes
only ERR_CODE. -/
def Obligations.InitBuildsTheEngineOrFails : Prop :=
  ∀ (s : State) (f : Inflight), s.inflight = some f →
    (f.kmask ≠ 0xFF → exec .init s = .next { s with errCode := .invalidKeySize, inflight := none }) ∧
    (f.kmask = 0xFF → f.nmask ≠ 0x3 → exec .init s = .next { s with errCode := .invalidNonceSize, inflight := none }) ∧
    (f.kmask = 0xFF → f.nmask = 0x3 → exec .init s = .next
      { s with
        k := f.key, n := f.nonce, c := f.ctr, pend := [], wrapped := false, configured := true, inflight := none })

/-- R506, R507, R508: SET_COUNTER sets C and empties PEND, whatever the old position; unconfigured it fails. -/
def Obligations.SetCounterSeeksOrFails : Prop :=
  ∀ (s : State) (f : Inflight), s.inflight = some f →
    (s.configured = false → exec .setCounter s = .next { s with errCode := .notConfigured, inflight := none }) ∧
    (s.configured = true → exec .setCounter s = .next { s with c := f.ctr, pend := [], inflight := none })

/-- R607: a word of the ILLEGAL row completes with ILLEGAL_COMMAND and no other effect. -/
def Obligations.IllegalRowRecordsIllegalCommand : Prop :=
  ∀ (w : Word) (s : State) (f : Inflight), s.inflight = some f →
    exec (.illegal w) s = .next { s with errCode := .illegalCommand, inflight := none }

/-! ## Stream commands -/

/-- R452, R453, R455, R457 to R461: a configured KEYSTREAM or CRYPT of `n` bytes refills PEND with one block only when it holds
fewer than `n`, takes the `n` oldest bytes, puts them (exclusive-or the data lane) in the lanes below `n` of DOUT and 0 in
the others; the counter moves with the refill and WRAPPED records its wrap; nothing else changes but the dead datapath. -/
def Obligations.StreamCommandsConsumeAndOutput : Prop :=
  ∀ (s : State) (f : Inflight) (len : BitVec 3) (i : Instr) (d : Word),
    s.inflight = some f → s.configured = true → len.toNat ≤ 4 →
    (i = .keystream len ∧ d = 0 ∨ i = .crypt len ∧ d = f.din) →
    let n := len.toNat
    let refills := decide (s.pend.length < n)
    let held := if refills then s.pend ++ block s.k s.n s.c else s.pend
    ∃ t : State,
      exec i s = .next t ∧
      n ≤ held.length ∧ (s.pend.length ≤ 63 → held.length ≤ 67) ∧
      (∀ j < 4, t.dout.extractLsb' (8 * j) 8 =
        if j < n then d.extractLsb' (8 * j) 8 ^^^ held.getD j 0 else 0) ∧
      { t with dp := s.dp, tick := s.tick } =
        { s with
          dout := t.dout, pend := held.drop n, c := if refills then s.c + 1 else s.c
          wrapped := s.wrapped || (refills && s.c == 0xFFFFFFFFFFFFFFFF), inflight := none } ∧
      (refills = false → t.dp = s.dp ∧ t.tick = s.tick)

/-- R462: a stream command of length 0 writes DOUT with 0 and changes nothing else, and still requires a configured engine. -/
def Obligations.ZeroLengthStreamLeavesTheBuffer : Prop :=
  ∀ (s : State) (f : Inflight) (i : Instr), s.inflight = some f → (i = .keystream 0 ∨ i = .crypt 0) →
    (s.configured = true → exec i s = .next { s with dout := 0, inflight := none }) ∧
    (s.configured = false → exec i s = .next { s with errCode := .notConfigured, inflight := none })

/-- R205: at a keystream position that is a multiple of 4, KEYSTREAM 4 gives the word of the block at that place, unchanged. -/
def Obligations.AlignedKeystreamIsABlockWord : Prop :=
  ∀ (s : State) (f : Inflight) (p : Position), AtPosition p s → s.inflight = some f → p.total % 4 = 0 →
    ∃ t : State, exec (.keystream 4) s = .next t ∧
      let S := initState p.key p.nonce (p.start + BitVec.ofNat 64 (p.total / 64))
      some t.dout = (feedForward (permute S) S)[p.total % 64 / 4]?

/-! ## Errors -/

/-- R610, R602, R604 to R609: of the errors that apply to the command in flight exactly one is recorded, the first in the
order; a failing command writes nothing else; a successful one leaves ERR_CODE; BUSY falls in every case (R575). -/
def Obligations.EngineStepReportsTheFirstError : Prop :=
  ∀ (s : State) (f : Inflight), s.inflight = some f →
    let op := (f.cmd.extractLsb' 0 4).toNat
    let len := (f.cmd.extractLsb' 4 3).toNat
    let illegalCommand := f.cmd.extractLsb' 7 25 ≠ 0 ∨ 5 ≤ op ∨ op ≤ 2 ∧ len ≠ 0
    let illegalLength := (op = 3 ∨ op = 4) ∧ 5 ≤ len
    let notConfigured := (op = 2 ∨ op = 3 ∨ op = 4) ∧ s.configured = false
    let badKey := op = 1 ∧ f.kmask ≠ 0xFF
    let badNonce := op = 1 ∧ f.nmask ≠ 0x3
    let fails := fun code => exec .engineStep s = .next { s with errCode := code, inflight := none }
    (illegalCommand → fails .illegalCommand) ∧
    (¬ illegalCommand → illegalLength → fails .illegalLength) ∧
    (¬ illegalCommand → ¬ illegalLength → notConfigured → fails .notConfigured) ∧
    (¬ illegalCommand → ¬ illegalLength → ¬ notConfigured → badKey → fails .invalidKeySize) ∧
    (¬ illegalCommand → ¬ illegalLength → ¬ notConfigured → ¬ badKey → badNonce → fails .invalidNonceSize) ∧
    (¬ illegalCommand → ¬ illegalLength → ¬ notConfigured → ¬ badKey → ¬ badNonce →
      ∃ t, exec .engineStep s = .next t ∧ t.inflight = none ∧ t.errCode = s.errCode)

/-! ## Encoding -/

/-- R303, R308: the words that select an operation are exactly the thirteen listed (R307 counts fourteen, log 20), each its
own operation. -/
def Obligations.ListedCommandWordsAreTheLegalOnes : Prop :=
  (∀ w : Word, (∀ code, decodeCommand w ≠ .illegal code) ↔
    w ∈ ([0x0, 0x1, 0x2, 0x3, 0x13, 0x23, 0x33, 0x43, 0x4, 0x14, 0x24, 0x34, 0x44] : List Word)) ∧
  decodeCommand 0x0 = .nop ∧ decodeCommand 0x1 = .init ∧ decodeCommand 0x2 = .setCounter ∧
  ∀ n : BitVec 3, n.toNat ≤ 4 →
    decodeCommand (0x3 ||| n.setWidth 32 <<< 4) = .keystream n ∧ decodeCommand (0x4 ||| n.setWidth 32 <<< 4) = .crypt n

/-- R301, R302: every selector and every command word decodes to the first row of the opcode table whose pattern it matches. -/
def Obligations.DecodingFollowsTheOpcodeTable : Prop :=
  (∀ (sel : BitVec 7) (d : Word), firstRow busRows sel.toNat = some (decodeBus sel d).mnemonic) ∧
  ∀ w : Word, firstRow cmdRows w.toNat = some (decodeRow w).mnemonic

/-- R301 to R308: decoding the encoding of a well-formed operation gives it back, every operand with it. -/
def Obligations.DecodeOfEncode : Prop :=
  ∀ (i : Instr) (code : Code), i.wf = true → encode i = some code → decode code = i

/-- R301, R307, R309: every code names a well-formed operation whose encoding is that code again, but for the value a read
does not carry (R300; log 9). -/
def Obligations.EncodeOfDecode : Prop :=
  ∀ code : Code, (decode code).wf = true ∧
    match code with
    | .cmd w => encode (decode (.cmd w)) = some (.cmd w)
    | .bus sel d => encode (decode (.bus sel d)) = some (.bus sel (if sel.getLsbD 6 then d else 0))

/-- R301, R303: words written out bit by bit from the spec's encodings, one or more of each family. That a write selector given
alone, without its value, stands for the value 0 is the model's choice and no rule's (log 9). -/
def Obligations.WrittenOutWordsDecode : Prop :=
  decodeTableWord 8 0b1000000 = some (.wrCtrl 0) ∧ decodeTableWord 8 0b0000001 = some .rdStatus ∧
  decodeTableWord 8 0b1000101 = some (.wrCtr 1 0) ∧ decodeTableWord 8 0b1001011 = some (.wrKey 3 0) ∧
  decodeTableWord 8 0b0001111 = some (.rdKey 7) ∧ decodeTableWord 8 0b0010001 = some (.rdNonce 1) ∧
  decodeTableWord 8 0b0010010 = some (.rdUnmapped 18) ∧ decodeTableWord 8 0b1111111 = some (.wrUnmapped 63 0) ∧
  decodeTableWord 32 0x00000001 = some .init ∧ decodeTableWord 32 0x00000043 = some (.keystream 4) ∧
  decodeTableWord 32 0x00000024 = some (.crypt 2) ∧ decodeTableWord 32 0x00000083 = some (.illegal 0x83) ∧
  decodeTableWord 8 0b10000000 = none ∧ decodeTableWord 16 0 = none

/-- R206: `addr[1:0]` is ignored: two addresses of one word slot select the same row. -/
def Obligations.AddressLowBitsAreIgnored : Prop :=
  ∀ (we : Bool) (a b : BitVec 8) (d : Word) (rest : List Event) (s : State),
    a.toNat / 4 = b.toNat / 4 →
    step { s with input := .access { we := we, addr := a, wdata := d } :: rest } =
      step { s with input := .access { we := we, addr := b, wdata := d } :: rest }

/-! ## Steps -/

/-- R551, R575, R211: a step runs the row the presented access selects; on the engine's turn it runs ENGINE_STEP, which is the
row of the command word in flight; with none in flight, and in a cycle with no access, nothing happens (log 1, log 6). -/
def Obligations.StepRunsTheDecodedInstruction : Prop :=
  ∀ (s : State) (rest : List Event),
    (∀ a : Access, s.input = .access a :: rest →
      step s = exec (decode (.bus (BitVec.ofBool a.we ++ a.addr.extractLsb' 2 6) a.wdata)) { s with input := rest }) ∧
    (s.input = .engine :: rest ∨ s.input = [] ∧ rest = [] →
      step s = exec .engineStep { s with input := rest } ∧
      (∀ f, s.inflight = some f → step s = exec (decode (.cmd f.cmd)) { s with input := rest }) ∧
      (s.inflight = none → step s = .next { s with input := rest })) ∧
    (s.input = .idle :: rest → step s = .next { s with input := rest })

/-- R700, R701, R702: at a `rst` edge every register takes its reset value, the command in flight is discarded, the access
presented in that cycle has no effect and a read of it returns 0. -/
def Obligations.ResetEdgeRestoresTheResetValues : Prop :=
  ∀ (s : State) (presented : Option Access) (rest : List Event), s.input = .reset presented :: rest →
    ∃ t : State, step s = .next t ∧ ArchReset t ∧ t.input = rest ∧
      ∀ a, presented = some a → a.we = false → t.rdata = 0

/-- R700, R703, and the reset values of R101 to R117: `State.reset` holds them, with nothing presented, and STATUS reads 0. -/
def Obligations.ResetStateHoldsTheResetValues : Prop :=
  ArchReset State.reset ∧ State.reset.input = [] ∧ exec .rdStatus State.reset = .next { State.reset with rdata := 0 }

/-- R703, R606: from the reset values, SET_COUNTER, KEYSTREAM and CRYPT fail with NOT_CONFIGURED, and nothing else changes. -/
def Obligations.AfterResetStreamsFail : Prop :=
  ∀ (s : State) (w : Word), ArchReset s →
    w ∈ ([0x2, 0x3, 0x13, 0x23, 0x33, 0x43, 0x4, 0x14, 0x24, 0x34, 0x44] : List Word) →
    ∃ t : State, exec (.wrCtrl w) s = .next t ∧
      exec .engineStep t = .next { s with errCode := .notConfigured }

/-! ## The datapath -/

/-- R402, R10: the twelve steps of the quarter-round, with circular left rotations by 16, 12, 8 and 7. -/
def Obligations.QuarterRoundFollowsItsSteps : Prop :=
  ∀ a b c d : Word,
    let a₁ := a + b
    let d₁ := (d ^^^ a₁).rotateLeft 16
    let c₁ := c + d₁
    let b₁ := (b ^^^ c₁).rotateLeft 12
    let a₂ := a₁ + b₁
    let d₂ := (d₁ ^^^ a₂).rotateLeft 8
    let c₂ := c₁ + d₂
    let b₂ := (b₁ ^^^ c₂).rotateLeft 7
    qr a b c d = ⟨a₂, b₂, c₂, d₂⟩

/-- R403: zero is a fixed point, and the quarter-round is a bijection: every output has exactly one input. -/
def Obligations.QuarterRoundIsABijection : Prop :=
  qr 0 0 0 0 = ⟨0, 0, 0, 0⟩ ∧
  ∀ q : Quad, ∃ r : Quad, qr r.a r.b r.c r.d = q ∧ ∀ r' : Quad, qr r'.a r'.b r'.c r'.d = q → r' = r

/-- R402, R407, R400: the QR row replaces the four words of its group of the working state by their quarter-round and leaves
every other word and register. -/
def Obligations.QrRowReplacesItsGroup : Prop :=
  ∀ (h : Half) (l : Fin 4) (s : State), ∃ x : Block,
    exec (.qr h l) s = .next { s with dp := { s.dp with x := x } } ∧
    let g := group h l
    Quad.mk x[g.a] x[g.b] x[g.c] x[g.d] = qr s.dp.x[g.a] s.dp.x[g.b] s.dp.x[g.c] s.dp.x[g.d] ∧
    ∀ j : Fin 16, j ≠ g.a → j ≠ g.b → j ≠ g.c → j ≠ g.d → x[j] = s.dp.x[j]

/-- R404, R405: the index groups of the two half-rounds, each quarter-round on the words from before the half-round. -/
def Obligations.HalfRoundsMixTheirGroups : Prop :=
  ∀ s : State,
    let x := s.dp.x
    (∃ y : Block, exec .columnRound s = .next { s with dp := { s.dp with x := y } } ∧
      Quad.mk y[0] y[4] y[8] y[12] = qr x[0] x[4] x[8] x[12] ∧
      Quad.mk y[1] y[5] y[9] y[13] = qr x[1] x[5] x[9] x[13] ∧
      Quad.mk y[2] y[6] y[10] y[14] = qr x[2] x[6] x[10] x[14] ∧
      Quad.mk y[3] y[7] y[11] y[15] = qr x[3] x[7] x[11] x[15]) ∧
    ∃ y : Block, exec .diagonalRound s = .next { s with dp := { s.dp with x := y } } ∧
      Quad.mk y[0] y[5] y[10] y[15] = qr x[0] x[5] x[10] x[15] ∧
      Quad.mk y[1] y[6] y[11] y[12] = qr x[1] x[6] x[11] x[12] ∧
      Quad.mk y[2] y[7] y[8] y[13] = qr x[2] x[7] x[8] x[13] ∧
      Quad.mk y[3] y[4] y[9] y[14] = qr x[3] x[4] x[9] x[14]

/-- R407: the four quarter-rounds of a half-round may be done in any order, one after another, with the same result. -/
def Obligations.LanesOfAHalfRoundCommute : Prop :=
  ∀ (lanes : List (Fin 4)) (x : Block), lanes.Perm [0, 1, 2, 3] →
    lanes.foldl (fun y l => qrLane .column l y) x = columnRound x ∧
    lanes.foldl (fun y l => qrLane .diagonal l y) x = diagonalRound x

/-- R406, 90 C1: DOUBLE_ROUND is the column half-round and then the diagonal one on what it wrote. -/
def Obligations.DoubleRoundReadsTheColumnOutputs : Prop :=
  ∀ s : State, ∃ t u : State,
    exec .columnRound s = .next t ∧ exec .diagonalRound t = .next u ∧ exec .doubleRound s = .next u

/-- R408, R409: the twenty pipeline steps carry out ten double-rounds; `RND` ends at 20 (log 8). -/
def Obligations.PipelineCarriesOutTenDoubleRounds : Prop :=
  ∀ s : State, exec .permute s = .next { s with dp := { s.dp with x := doubleRound^[10] s.dp.x, rnd := 20 } }

/-- R410, R401, R203: the layout of the input state. -/
def Obligations.InputStateLayout : Prop :=
  ∀ (key : KeyWords) (nonce : NonceWords) (c : BitVec 64) (s : State), ∃ z : Block,
    exec (.initState key nonce c) s = .next { s with dp := { s.dp with s := z } } ∧
    z.toList = [0x61707865, 0x3320646e, 0x79622d32, 0x6b206574] ++ key.toList ++
      [c.extractLsb' 0 32, c.extractLsb' 32 32] ++ nonce.toList

/-- R412: sixteen independent wrapping additions; the working state and the input state stay (where `Z` is kept is the
model's own, log 5). -/
def Obligations.FeedForwardAddsWordByWord : Prop :=
  ∀ s : State, ∃ z : Block,
    exec .feedForward s = .next { s with dp := { s.dp with z := z } } ∧ ∀ i : Fin 16, z[i] = s.dp.x[i] + s.dp.s[i]

/-- R413: byte `4j + i` of the block is bits `[8i+7:8i]` of `Z[j]`, 64 bytes in all (where they are kept is the model's own,
log 5). -/
def Obligations.SerializeIsLittleEndian : Prop :=
  ∀ s : State, ∃ bytes : List Byte,
    exec .serialize s = .next { s with dp := { s.dp with bytes := bytes } } ∧ bytes.length = 64 ∧
    ∀ (j : Fin 16) (i : Fin 4), bytes[4 * j.val + i.val]? = some (s.dp.z[j].extractLsb' (8 * i.val) 8)

/-- R416: BLOCK's lines in order; only the datapath is written (R414), and `S`, `X`, `RND` are dead after it (free values, log 3).
The field the 64 bytes are held in is the model's own (log 5). -/
def Obligations.BlockFollowsItsLines : Prop :=
  ∀ (key : KeyWords) (nonce : NonceWords) (c : BitVec 64) (s : State), ∃ t : State,
    exec (.block key nonce c) s = .next t ∧
    { t with dp := s.dp, tick := s.tick } = s ∧
    let S := initState key nonce c
    let X := doubleRound^[10] S
    t.dp.bytes = serialize (Vector.zipWith (· + ·) X S) ∧ t.dp.bytes.length = 64

/-- R400, R414: the datapath rows write no register but those of the datapath. -/
def Obligations.DatapathRowsWriteOnlyTheDatapath : Prop :=
  ∀ (i : Instr) (s : State), i.isDatapath = true →
    ∃ t : State, exec i s = .next t ∧ { t with dp := s.dp, tick := s.tick } = s

/-- R118, R119, 93 I1: what `S`, `X` and `RND` hold between blocks is never observed: two states that differ there alone step
to states that differ there alone. -/
def Obligations.DeadDatapathIsNeverObserved : Prop :=
  ∀ (s : State) (dp : Datapath) (tick : Nat), ∃ t t' : State,
    step s = .next t ∧ step { s with dp := dp, tick := tick } = .next t' ∧
    t' = { t with dp := t'.dp, tick := t'.tick }

/-! ## Invariants, and who writes what -/

/-- R463, R102, R104, R113, R703: the invariant holds at reset. -/
def Obligations.InvariantHoldsAtReset : Prop := State.reset.Inv

/-- R463, R102, R104, R108 to R114: every step keeps the invariant: PEND holds at most 63 bytes, an unwritten staging word is 0,
a configured engine was given a whole key and nonce, an unconfigured one is as reset left it. -/
def Obligations.StepKeepsTheInvariant : Prop :=
  ∀ s t : State, s.Inv → step s = .next t → t.Inv

/-- R110, R111: C is written by a successful INIT or SET_COUNTER (any value), by a refill (plus one, modulo 2^64) and by reset
(zero), by nothing else. -/
def Obligations.CounterWrittenOnlyByTheFour : Prop :=
  ∀ s t : State, step s = .next t →
    t.c = s.c ∨ (s.resetTurn ∧ t.c = 0) ∨ (∃ f, s.initCompletes f ∧ t.c = f.ctr) ∨ (∃ f, s.seekCompletes f ∧ t.c = f.ctr) ∨
      ∃ f m, s.streamCompletes f m ∧ s.pend.length < m ∧ t.c = s.c + 1

/-- R108, R109, R113, R509: K, N and CONFIGURED are written only by a successful INIT, from the copies made at its issue, and by
reset. -/
def Obligations.ConfigurationWrittenOnlyByInitAndReset : Prop :=
  ∀ s t : State, step s = .next t →
    (t.k = s.k ∧ t.n = s.n ∧ t.configured = s.configured) ∨
    (s.resetTurn ∧ t.k = KeyWords.zero ∧ t.n = NonceWords.zero ∧ t.configured = false) ∨
    ∃ f, s.initCompletes f ∧ t.k = f.key ∧ t.n = f.nonce ∧ t.configured = true

/-- R114: WRAPPED is set when a refill increments C from its last value, and cleared by reset, by a successful INIT and by a
write of STATUS with bit 2 set, by nothing else. -/
def Obligations.WrappedIsSticky : Prop :=
  ∀ s t : State, step s = .next t →
    (s.wrapped = false → t.wrapped = true →
      ∃ f m, s.streamCompletes f m ∧ s.pend.length < m ∧ s.c = 0xFFFFFFFFFFFFFFFF ∧ t.c = 0) ∧
    (s.wrapped = true → t.wrapped = false →
      s.resetTurn ∨ (∃ f, s.initCompletes f) ∨ ∃ d : Word, d.getLsbD 2 = true ∧ s.accessTurn (.wrStatus d))

/-- R115, R609: ERR_CODE is written by a failing command at its completion, by a write of CTRL while BUSY, by a write of STATUS
with bit 3 set and by reset, by nothing else. -/
def Obligations.ErrorCodeWrittenOnlyByTheFour : Prop :=
  ∀ s t : State, step s = .next t →
    t.errCode = s.errCode ∨
    (s.resetTurn ∧ t.errCode = .none) ∨
    (∃ w, s.accessTurn (.wrCtrl w) ∧ s.busy = true ∧ t.errCode = .busyOverrun) ∨
    (∃ d : Word, d.getLsbD 3 = true ∧ s.accessTurn (.wrStatus d) ∧ t.errCode = .none) ∨
    (s.engineTurn ∧ s.busy = true ∧ t.busy = false ∧ t.errCode ≠ .none ∧ t.errCode ≠ .busyOverrun ∧
      { t with errCode := s.errCode, inflight := s.inflight, input := s.input } = s)

/-- R101 to R107: the staging registers, their masks and DIN are written only by their own writes and by reset, DOUT only by a
KEYSTREAM or CRYPT that completes without error and by reset. -/
def Obligations.StagingAndDataRegistersHaveTheirWriters : Prop :=
  ∀ s t : State, step s = .next t → ¬ s.resetTurn →
    ((∀ k d, ¬ s.accessTurn (.wrKey k d)) → t.keyStage = s.keyStage ∧ t.keyMask = s.keyMask) ∧
    ((∀ n d, ¬ s.accessTurn (.wrNonce n d)) → t.nonceStage = s.nonceStage ∧ t.nonceMask = s.nonceMask) ∧
    ((∀ d, ¬ s.accessTurn (.wrCtrstgLo d) ∧ ¬ s.accessTurn (.wrCtrstgHi d)) → t.ctrStage = s.ctrStage) ∧
    ((∀ d, ¬ s.accessTurn (.wrDin d)) → t.din = s.din) ∧
    (t.dout ≠ s.dout → ∃ f m, s.streamCompletes f m)

/-- R573, R603: no access changes C, PEND, DOUT, K, N or CONFIGURED, and none changes the command in flight. (The engine's status
bits are not meant: WR_STATUS writes WRAPPED and ERR_CODE, WR_CTRL writes ERR_CODE or BUSY.) -/
def Obligations.AccessesLeaveTheEngine : Prop :=
  ∀ (a : Access) (s : State), ∃ t : State, exec (decodeBus (selector a.we a.addr) a.wdata) s = .next t ∧
    t.c = s.c ∧ t.pend = s.pend ∧ t.dout = s.dout ∧ t.k = s.k ∧ t.n = s.n ∧ t.configured = s.configured ∧
    (s.busy = true → t.inflight = s.inflight)

/-- R574, R712, R214: a write of DIN or of a staging register while a command is in flight never changes that command: the write
and the completion may change places. -/
def Obligations.StagingWritesCommuteWithCompletion : Prop :=
  ∀ (i : Instr) (s : State), i.isStagingWrite = true → s.busy = true →
    ∃ t u v : State, exec i s = .next t ∧ exec .engineStep t = .next u ∧
      exec .engineStep s = .next v ∧ exec i v = .next u

/-- R208: a read changes no state (the port's value apart), and every write but that of CTRL is idempotent. -/
def Obligations.ReadsAreFreeAndWritesIdempotent : Prop :=
  ∀ (i : Instr) (s : State),
    (i.isRead = true → ∃ t : State, exec i s = .next t ∧ { t with rdata := s.rdata } = s ∧ exec i t = .next t) ∧
    (i.isPlainWrite = true → ∃ t : State, exec i s = .next t ∧ exec i t = .next t)

/-- R600, R307, R550: nothing stops the CORE: every operation and every step has a next state. -/
def Obligations.NothingStopsTheCore : Prop :=
  (∀ (i : Instr) (s : State), ∃ t : State, exec i s = .next t) ∧ ∀ s : State, ∃ t : State, step s = .next t

/-- R722: a command in flight completes (or is discarded by reset), at the latest one step after the last event still to
come (the bound is the model's schedule, log 1). -/
def Obligations.CommandInFlightEnds : Prop :=
  ∀ s : State, s.busy = true →
    ∃ m ≤ s.input.length + 1, ∃ t : State, core.run m s = .next t ∧ t.busy = false

/-! ## The keystream -/

/-- R464, R451, R502, R506: the position law, kept by every step. A configured engine stands at a keystream position (key, nonce,
starting counter, bytes consumed): its counter and its buffer are what that position says. INIT and SET_COUNTER start a
position, a successful KEYSTREAM or CRYPT moves it by its length, everything else leaves it, reset ends it. -/
def Obligations.StepFollowsThePositionLaw : Prop :=
  ∀ (s t : State) (p : Option Position), AtPositionOpt p s → step s = .next t → AtPositionOpt (nextPosition s p) t

/-- R464, R460: the command that brings the total from `T` to `T + n` consumes bytes `T` to `T + n - 1` of the keystream: they
stand, exclusive-or the data, in the lanes of DOUT. -/
def Obligations.StreamOutputsTheBytesAtItsPosition : Prop :=
  ∀ (s : State) (f : Inflight) (p : Position) (len : BitVec 3), AtPosition p s → s.inflight = some f → len.toNat ≤ 4 →
    (∃ t, exec (.keystream len) s = .next t ∧ AtPosition { p with total := p.total + len.toNat } t ∧
      ∀ j < len.toNat, t.dout.extractLsb' (8 * j) 8 = ksByte p.key p.nonce p.start (p.total + j)) ∧
    ∃ t, exec (.crypt len) s = .next t ∧ AtPosition { p with total := p.total + len.toNat } t ∧
      ∀ j < len.toNat, t.dout.extractLsb' (8 * j) 8 =
        f.din.extractLsb' (8 * j) 8 ^^^ ksByte p.key p.nonce p.start (p.total + j)

/-- R465: the chunking law, of a host that polls after each command (log 21). A host program of KEYSTREAM commands reads the keystream bytes at its position, and one of CRYPT
commands its data exclusive-or those bytes, whatever the split into chunks of at most four bytes. -/
def Obligations.ChunkingDoesNotMatter : Prop :=
  ∀ (s : State) (p : Position), AtPosition p s → s.inflight = none →
    (∀ ns : List (Fin 5),
      (keystreamProgram ns s).1 = ksBytes p.key p.nonce p.start p.total (ns.map Fin.val).sum) ∧
    ∀ chunks : List (List Byte), (∀ chunk ∈ chunks, chunk.length ≤ 4) →
      (cryptProgram chunks s).1 =
        List.zipWith (· ^^^ ·) chunks.flatten (ksBytes p.key p.nonce p.start p.total chunks.flatten.length)

/-- R466: the involution law, of hosts that poll after each command (log 21). Two COREs at the same position: what the first encrypts, in any split, the second decrypts, in
any split. -/
def Obligations.DecryptionInvertsEncryption : Prop :=
  ∀ (a b : State) (p : Position) (chunks chunks' : List (List Byte)),
    AtPosition p a → AtPosition p b → a.inflight = none → b.inflight = none →
    (∀ chunk ∈ chunks, chunk.length ≤ 4) → (∀ chunk ∈ chunks', chunk.length ≤ 4) →
    chunks'.flatten = (cryptProgram chunks a).1 → (cryptProgram chunks' b).1 = chunks.flatten

/-- R511, of a host that polls after each command (log 21): after `seek c` a configured engine's KEYSTREAM commands read the keystream from byte 0 of block `c`, the bytes a fresh
INIT with the same key and nonce and the starting counter `c` gives. -/
def Obligations.SeekGivesRandomAccess : Prop :=
  ∀ (s : State) (c : BitVec 64) (tries : Nat) (ns : List (Fin 5)), s.configured = true → s.inflight = none →
    let t := bringAll (Line.seek c tries).events s
    (keystreamProgram ns t).1 = ksBytes s.k s.n c 0 (ns.map Fin.val).sum ∧
    ∀ (u v : State) (f : Inflight), u.inflight = some f → f.kmask = 0xFF → f.nmask = 0x3 →
      f.key = s.k → f.nonce = s.n → f.ctr = c → exec .init u = .next v →
      (keystreamProgram ns v).1 = (keystreamProgram ns t).1

/-! ## Secrecy, time, and several COREs -/

/-- R617, R568: no access reveals K, N, the staged key, the bytes of PEND or the datapath: two states that agree on everything
else give the same read value and agree on everything else after it. -/
def Obligations.AccessesRevealNoSecret : Prop :=
  ∀ (s s' : State) (a : Access), s.visible = s'.visible →
    ∃ t t' : State, exec (decodeBus (selector a.we a.addr) a.wdata) s = .next t ∧
      exec (decodeBus (selector a.we a.addr) a.wdata) s' = .next t' ∧ t.rdata = t'.rdata ∧ t.visible = t'.visible

/-- R720, R721: the latency of the command in flight is `T_BLOCK` when it is a KEYSTREAM or CRYPT of `n` bytes on a configured
engine whose PEND holds fewer than `n`, and `T_SHORT` in every other case: so states that agree on the command word, CONFIGURED
and the length of PEND have one latency, whatever their key, nonce, counter and data (the two constants are open, log 15). -/
def Obligations.LatencyDependsOnlyOnRefilling : Prop :=
  (∀ (s : State) (f : Inflight), s.inflight = some f →
    let refills := s.configured = true ∧ ∃ n : BitVec 3,
      (decodeCommand f.cmd = .keystream n ∨ decodeCommand f.cmd = .crypt n) ∧ s.pend.length < n.toNat
    (refills → s.latency = Config.tBlock) ∧ (¬ refills → s.latency = Config.tShort)) ∧
  ∀ s s' : State, s.inflight.map Inflight.cmd = s'.inflight.map Inflight.cmd → s.configured = s'.configured →
    s.pend.length = s'.pend.length →
    s.latency = s'.latency ∧ (s.latency = Config.tBlock ∨ s.latency = Config.tShort)

/-- R616, R125: CORE `i` becomes what `Machine.step` gives from its own state alone, and a step of it changes no other CORE (a
platform is a list of whole states, log 14). -/
def Obligations.CoresShareNothing : Prop :=
  (∀ (i : Nat) (p : Platform) (s t : State), p[i]? = some s → Machine.step s = .next t →
    Platform.step i p = .next (p.set i t)) ∧
  ∀ (i : Nat) (p q : Platform), Platform.step i p = .next q →
    q.length = p.length ∧ (∀ j, j ≠ i → q[j]? = p[j]?) ∧
    ∀ s, p[i]? = some s → ∃ t, Machine.step s = .next t ∧ q[i]? = some t
end

