-- ==== Sys2Proof/Laws/Datapath.lean ====
section
/-! SUPPORT. What the datapath operations do: the pipeline of R409 carries out PERMUTE, and a block is 64 bytes. -/

namespace Sys2Proof.Machine

@[simp] theorem bytesLe_length (w : Word) : (bytesLe w).length = 4 := rfl

/-- A block is 64 bytes (R413, R416). -/
@[simp] theorem serialize_length (z : Block) : (serialize z).length = 64 := by
  simp [serialize]

@[simp] theorem block_length (key : KeyWords) (nonce : NonceWords) (c : BitVec 64) : (block key nonce c).length = 64 :=
  serialize_length _

/-- Two pipeline steps from an even `RND` are one double-round (R406, R409). -/
theorem roundStep_roundStep (d : Datapath) (m : Nat) (hm : m < 10) (h : d.rnd.val = 2 * m) :
    d.roundStep.roundStep = { d with x := doubleRound d.x, rnd := ⟨2 * m + 2, by clear h; omega⟩ } := by
  obtain ⟨s, x, r, z, b⟩ := d
  obtain ⟨r, hr⟩ := r
  subst h
  have h0 : 2 * m < Config.rounds := by simp only [Config.rounds]; omega
  have h1 : 2 * m + 1 < Config.rounds := by simp only [Config.rounds]; omega
  have odd : (2 * m + 1) % 2 = 1 := by omega
  simp [Datapath.roundStep, h0, h1, odd, Datapath.columnRound, Datapath.diagonalRound, doubleRound]

/-- Ten double-rounds in pipeline steps, from any even `RND` (R409). -/
theorem roundSteps_doubleRounds (j : Nat) : ∀ (d : Datapath) (m : Nat), d.rnd.val = 2 * m → (hj : m + j = 10) →
    Datapath.roundSteps (2 * j) d = { d with x := doubleRounds j d.x, rnd := 20 } := by
  induction j with
  | zero =>
    intro d m h hj
    have h20 : d.rnd = 20 := Fin.ext (by rw [h, show m = 10 by omega]; rfl)
    simp [Datapath.roundSteps, doubleRounds, ← h20]
  | succ j ih =>
    intro d m h hj
    rw [show 2 * (j + 1) = 2 * j + 1 + 1 by omega]
    simp only [Datapath.roundSteps]
    rw [roundStep_roundStep d m (by omega) h, ih _ (m + 1) (by show 2 * m + 2 = _; omega) (by omega)]
    rfl

/-- The pipeline carries out PERMUTE and leaves `RND` at 20 (R408, R409). -/
theorem datapath_permute (d : Datapath) : d.permute = { d with x := permute d.x, rnd := 20 } :=
  roundSteps_doubleRounds 10 { d with rnd := 0 } 0 rfl rfl

namespace Datapath

/-- The registers' BLOCK gives the bytes of the pure one (R416). -/
@[simp] theorem block_bytes (key : KeyWords) (nonce : NonceWords) (c : BitVec 64) (d : Datapath) :
    (d.block key nonce c).bytes = Machine.block key nonce c := by
  simp only [block, datapath_permute, serialize, feedForward, load, initState, Machine.block]

@[simp] theorem dead_bytes (t : Nat) (d : Datapath) : (d.dead t).bytes = d.bytes := rfl
@[simp] theorem dead_z (t : Nat) (d : Datapath) : (d.dead t).z = d.z := rfl
@[simp] theorem dead_s (t : Nat) (d : Datapath) : (d.dead t).s = Config.deadS t := rfl
@[simp] theorem dead_x (t : Nat) (d : Datapath) : (d.dead t).x = Config.deadX t := rfl
@[simp] theorem dead_rnd (t : Nat) (d : Datapath) : (d.dead t).rnd = Config.deadRnd t := rfl

end Datapath

end Sys2Proof.Machine
end

