-- ==== Sys2Proof/Laws/Decode.lean ====
section
/-! SUPPORT. The fields of a command word, and the two decoders against each other. -/

namespace Sys2Proof

/-- Bit `i` of a word put together from its fields (R302). -/
theorem commandWord_getLsbD (op : BitVec 4) (len : BitVec 3) (i : Nat) :
    (commandWord op len).getLsbD i =
      if i < 4 then op.getLsbD i else if i - 4 < 3 then len.getLsbD (i - 4) else false := by
  have h1 := BitVec.getLsbD_append (x := (0#25 ++ len : BitVec 28)) (y := op) (i := i)
  have h2 := BitVec.getLsbD_append (x := 0#25) (y := len) (i := i - 4)
  rw [h2] at h1
  simpa [commandWord] using h1

/-- The fields of a word put together from fields (R302). -/
@[simp] theorem commandWord_op (op : BitVec 4) (len : BitVec 3) : (commandWord op len).extractLsb' 0 4 = op := by
  apply BitVec.eq_of_getLsbD_eq; intro i hi
  simp [commandWord_getLsbD, hi]
@[inherit_doc commandWord_op, simp] theorem commandWord_len (op : BitVec 4) (len : BitVec 3) :
    (commandWord op len).extractLsb' 4 3 = len := by
  apply BitVec.eq_of_getLsbD_eq; intro i hi
  simp [commandWord_getLsbD, hi]
@[inherit_doc commandWord_op, simp] theorem commandWord_rsv (op : BitVec 4) (len : BitVec 3) :
    (commandWord op len).extractLsb' 7 25 = 0 := by
  apply BitVec.eq_of_getLsbD_eq; intro i hi
  simp [commandWord_getLsbD, show ¬ 7 + i < 4 by omega, show ¬ 7 + i - 4 < 3 by omega]

/-- A word with no reserved bit is put together from its `OP` and `LEN` (R302). -/
theorem word_eq_commandWord {w : Word} (h : w.extractLsb' 7 25 = 0) :
    w = commandWord (w.extractLsb' 0 4) (w.extractLsb' 4 3) := by
  apply BitVec.eq_of_getLsbD_eq; intro i hi
  rw [commandWord_getLsbD]
  by_cases h1 : i < 4
  · simp [h1]
  · by_cases h2 : i - 4 < 3
    · simp [h1, h2, show 4 + (i - 4) = i by omega]
    · have h3 : (w.extractLsb' 7 25).getLsbD (i - 7) = false := by rw [h]; simp
      simpa [h1, h2, show i - 7 < 25 by omega, show 7 + (i - 7) = i by omega] using h3

/-- A reserved bit makes a word illegal for both decoders (R305, R307). -/
theorem decode_reserved {w : Word} (h : w.extractLsb' 7 25 ≠ 0) :
    decodeCommand w = .illegal .illegalCommand ∧ decodeRow w = .illegal w := by
  constructor
  · simp only [decodeCommand]; exact if_pos (.inl h)
  · have : illegalWord w = true := by simp only [illegalWord, bne_iff_ne.mpr h, Bool.true_or]
    simp only [decodeRow, this, if_true]

/-- What R308's decoder and the opcode table's rows say of one word: the same operation, ILLEGAL_COMMAND for the ILLEGAL row,
and ILLEGAL_LENGTH for a `LEN` of 5..7 in the KEYSTREAM and CRYPT rows (R307, log 9). -/
def agrees (w : Word) : Decoded → Instr → Bool
  | .illegal .illegalCommand, .illegal w' => w' == w
  | .illegal .illegalLength, .keystream n => 5 ≤ n.toNat
  | .illegal .illegalLength, .crypt n => 5 ≤ n.toNat
  | .nop, .nop => true
  | .init, .init => true
  | .setCounter, .setCounter => true
  | .keystream n, .keystream m => n == m && n.toNat ≤ 4
  | .crypt n, .crypt m => n == m && n.toNat ≤ 4
  | _, _ => false

/-- The two decoders agree on a word. -/
def decodersAgree (w : Word) : Bool := agrees w (decodeCommand w) (decodeRow w)

theorem decodersAgree_commandWord : ∀ (op : BitVec 4) (len : BitVec 3), decodersAgree (commandWord op len) = true := by
  decide +kernel

/-- The two decoders agree on every word. -/
theorem decodersAgree_all (w : Word) : decodersAgree w = true := by
  by_cases h : w.extractLsb' 7 25 = 0
  · have := decodersAgree_commandWord (w.extractLsb' 0 4) (w.extractLsb' 4 3)
    rwa [← word_eq_commandWord h] at this
  · unfold decodersAgree
    rw [(decode_reserved h).1, (decode_reserved h).2]
    exact beq_self_eq_true w

end Sys2Proof
end

