-- ==== Sys2Proof/Laws/State.lean ====
section
/-! SUPPORT. One lemma per field per state update, true by `rfl`, so that no later proof unfolds a record update. -/

namespace Sys2Proof.Machine.State

section raise
variable (code : ErrCode) (s : State)

@[simp] theorem raise_keyStage : (s.raise code).keyStage = s.keyStage := rfl
@[simp] theorem raise_keyMask : (s.raise code).keyMask = s.keyMask := rfl
@[simp] theorem raise_nonceStage : (s.raise code).nonceStage = s.nonceStage := rfl
@[simp] theorem raise_nonceMask : (s.raise code).nonceMask = s.nonceMask := rfl
@[simp] theorem raise_ctrStage : (s.raise code).ctrStage = s.ctrStage := rfl
@[simp] theorem raise_din : (s.raise code).din = s.din := rfl
@[simp] theorem raise_dout : (s.raise code).dout = s.dout := rfl
@[simp] theorem raise_k : (s.raise code).k = s.k := rfl
@[simp] theorem raise_n : (s.raise code).n = s.n := rfl
@[simp] theorem raise_c : (s.raise code).c = s.c := rfl
@[simp] theorem raise_pend : (s.raise code).pend = s.pend := rfl
@[simp] theorem raise_configured : (s.raise code).configured = s.configured := rfl
@[simp] theorem raise_wrapped : (s.raise code).wrapped = s.wrapped := rfl
@[simp] theorem raise_errCode : (s.raise code).errCode = code := rfl
@[simp] theorem raise_inflight : (s.raise code).inflight = s.inflight := rfl
@[simp] theorem raise_dp : (s.raise code).dp = s.dp := rfl
@[simp] theorem raise_rdata : (s.raise code).rdata = s.rdata := rfl
@[simp] theorem raise_tick : (s.raise code).tick = s.tick := rfl
@[simp] theorem raise_input : (s.raise code).input = s.input := rfl

end raise

section complete
variable (s : State)

@[simp] theorem complete_keyStage : s.complete.keyStage = s.keyStage := rfl
@[simp] theorem complete_keyMask : s.complete.keyMask = s.keyMask := rfl
@[simp] theorem complete_nonceStage : s.complete.nonceStage = s.nonceStage := rfl
@[simp] theorem complete_nonceMask : s.complete.nonceMask = s.nonceMask := rfl
@[simp] theorem complete_ctrStage : s.complete.ctrStage = s.ctrStage := rfl
@[simp] theorem complete_din : s.complete.din = s.din := rfl
@[simp] theorem complete_dout : s.complete.dout = s.dout := rfl
@[simp] theorem complete_k : s.complete.k = s.k := rfl
@[simp] theorem complete_n : s.complete.n = s.n := rfl
@[simp] theorem complete_c : s.complete.c = s.c := rfl
@[simp] theorem complete_pend : s.complete.pend = s.pend := rfl
@[simp] theorem complete_configured : s.complete.configured = s.configured := rfl
@[simp] theorem complete_wrapped : s.complete.wrapped = s.wrapped := rfl
@[simp] theorem complete_errCode : s.complete.errCode = s.errCode := rfl
@[simp] theorem complete_inflight : s.complete.inflight = none := rfl
@[simp] theorem complete_dp : s.complete.dp = s.dp := rfl
@[simp] theorem complete_rdata : s.complete.rdata = s.rdata := rfl
@[simp] theorem complete_tick : s.complete.tick = s.tick := rfl
@[simp] theorem complete_input : s.complete.input = s.input := rfl

end complete

section issue
variable (cmd : Word) (s : State)

@[simp] theorem issue_keyStage : (s.issue cmd).keyStage = s.keyStage := rfl
@[simp] theorem issue_keyMask : (s.issue cmd).keyMask = s.keyMask := rfl
@[simp] theorem issue_nonceStage : (s.issue cmd).nonceStage = s.nonceStage := rfl
@[simp] theorem issue_nonceMask : (s.issue cmd).nonceMask = s.nonceMask := rfl
@[simp] theorem issue_ctrStage : (s.issue cmd).ctrStage = s.ctrStage := rfl
@[simp] theorem issue_din : (s.issue cmd).din = s.din := rfl
@[simp] theorem issue_dout : (s.issue cmd).dout = s.dout := rfl
@[simp] theorem issue_k : (s.issue cmd).k = s.k := rfl
@[simp] theorem issue_n : (s.issue cmd).n = s.n := rfl
@[simp] theorem issue_c : (s.issue cmd).c = s.c := rfl
@[simp] theorem issue_pend : (s.issue cmd).pend = s.pend := rfl
@[simp] theorem issue_configured : (s.issue cmd).configured = s.configured := rfl
@[simp] theorem issue_wrapped : (s.issue cmd).wrapped = s.wrapped := rfl
@[simp] theorem issue_errCode : (s.issue cmd).errCode = s.errCode := rfl
@[simp] theorem issue_inflight : (s.issue cmd).inflight = some (s.capture cmd) := rfl
@[simp] theorem issue_dp : (s.issue cmd).dp = s.dp := rfl
@[simp] theorem issue_rdata : (s.issue cmd).rdata = s.rdata := rfl
@[simp] theorem issue_tick : (s.issue cmd).tick = s.tick := rfl
@[simp] theorem issue_input : (s.issue cmd).input = s.input := rfl

end issue

section read
variable (v : Word) (s : State)

@[simp] theorem read_keyStage : (s.read v).keyStage = s.keyStage := rfl
@[simp] theorem read_keyMask : (s.read v).keyMask = s.keyMask := rfl
@[simp] theorem read_nonceStage : (s.read v).nonceStage = s.nonceStage := rfl
@[simp] theorem read_nonceMask : (s.read v).nonceMask = s.nonceMask := rfl
@[simp] theorem read_ctrStage : (s.read v).ctrStage = s.ctrStage := rfl
@[simp] theorem read_din : (s.read v).din = s.din := rfl
@[simp] theorem read_dout : (s.read v).dout = s.dout := rfl
@[simp] theorem read_k : (s.read v).k = s.k := rfl
@[simp] theorem read_n : (s.read v).n = s.n := rfl
@[simp] theorem read_c : (s.read v).c = s.c := rfl
@[simp] theorem read_pend : (s.read v).pend = s.pend := rfl
@[simp] theorem read_configured : (s.read v).configured = s.configured := rfl
@[simp] theorem read_wrapped : (s.read v).wrapped = s.wrapped := rfl
@[simp] theorem read_errCode : (s.read v).errCode = s.errCode := rfl
@[simp] theorem read_inflight : (s.read v).inflight = s.inflight := rfl
@[simp] theorem read_dp : (s.read v).dp = s.dp := rfl
@[simp] theorem read_rdata : (s.read v).rdata = v := rfl
@[simp] theorem read_tick : (s.read v).tick = s.tick := rfl
@[simp] theorem read_input : (s.read v).input = s.input := rfl

end read

section runBlock
variable (key : KeyWords) (nonce : NonceWords) (ctr : BitVec 64) (s : State)

@[simp] theorem runBlock_keyStage : (s.runBlock key nonce ctr).keyStage = s.keyStage := rfl
@[simp] theorem runBlock_keyMask : (s.runBlock key nonce ctr).keyMask = s.keyMask := rfl
@[simp] theorem runBlock_nonceStage : (s.runBlock key nonce ctr).nonceStage = s.nonceStage := rfl
@[simp] theorem runBlock_nonceMask : (s.runBlock key nonce ctr).nonceMask = s.nonceMask := rfl
@[simp] theorem runBlock_ctrStage : (s.runBlock key nonce ctr).ctrStage = s.ctrStage := rfl
@[simp] theorem runBlock_din : (s.runBlock key nonce ctr).din = s.din := rfl
@[simp] theorem runBlock_dout : (s.runBlock key nonce ctr).dout = s.dout := rfl
@[simp] theorem runBlock_k : (s.runBlock key nonce ctr).k = s.k := rfl
@[simp] theorem runBlock_n : (s.runBlock key nonce ctr).n = s.n := rfl
@[simp] theorem runBlock_c : (s.runBlock key nonce ctr).c = s.c := rfl
@[simp] theorem runBlock_pend : (s.runBlock key nonce ctr).pend = s.pend := rfl
@[simp] theorem runBlock_configured : (s.runBlock key nonce ctr).configured = s.configured := rfl
@[simp] theorem runBlock_wrapped : (s.runBlock key nonce ctr).wrapped = s.wrapped := rfl
@[simp] theorem runBlock_errCode : (s.runBlock key nonce ctr).errCode = s.errCode := rfl
@[simp] theorem runBlock_inflight : (s.runBlock key nonce ctr).inflight = s.inflight := rfl
@[simp] theorem runBlock_dp : (s.runBlock key nonce ctr).dp = (s.dp.block key nonce ctr).dead s.tick := rfl
@[simp] theorem runBlock_rdata : (s.runBlock key nonce ctr).rdata = s.rdata := rfl
@[simp] theorem runBlock_tick : (s.runBlock key nonce ctr).tick = s.tick + 1 := rfl
@[simp] theorem runBlock_input : (s.runBlock key nonce ctr).input = s.input := rfl

end runBlock

section increment
variable (s : State)

@[simp] theorem increment_keyStage : s.increment.keyStage = s.keyStage := rfl
@[simp] theorem increment_keyMask : s.increment.keyMask = s.keyMask := rfl
@[simp] theorem increment_nonceStage : s.increment.nonceStage = s.nonceStage := rfl
@[simp] theorem increment_nonceMask : s.increment.nonceMask = s.nonceMask := rfl
@[simp] theorem increment_ctrStage : s.increment.ctrStage = s.ctrStage := rfl
@[simp] theorem increment_din : s.increment.din = s.din := rfl
@[simp] theorem increment_dout : s.increment.dout = s.dout := rfl
@[simp] theorem increment_k : s.increment.k = s.k := rfl
@[simp] theorem increment_n : s.increment.n = s.n := rfl
@[simp] theorem increment_c : s.increment.c = s.c + 1 := rfl
@[simp] theorem increment_pend : s.increment.pend = s.pend := rfl
@[simp] theorem increment_configured : s.increment.configured = s.configured := rfl
@[simp] theorem increment_wrapped : s.increment.wrapped = (s.wrapped || s.c == BitVec.allOnes 64) := rfl
@[simp] theorem increment_errCode : s.increment.errCode = s.errCode := rfl
@[simp] theorem increment_inflight : s.increment.inflight = s.inflight := rfl
@[simp] theorem increment_dp : s.increment.dp = s.dp := rfl
@[simp] theorem increment_rdata : s.increment.rdata = s.rdata := rfl
@[simp] theorem increment_tick : s.increment.tick = s.tick := rfl
@[simp] theorem increment_input : s.increment.input = s.input := rfl

end increment

section appendBlock
variable (s : State)

@[simp] theorem appendBlock_keyStage : s.appendBlock.keyStage = s.keyStage := rfl
@[simp] theorem appendBlock_keyMask : s.appendBlock.keyMask = s.keyMask := rfl
@[simp] theorem appendBlock_nonceStage : s.appendBlock.nonceStage = s.nonceStage := rfl
@[simp] theorem appendBlock_nonceMask : s.appendBlock.nonceMask = s.nonceMask := rfl
@[simp] theorem appendBlock_ctrStage : s.appendBlock.ctrStage = s.ctrStage := rfl
@[simp] theorem appendBlock_din : s.appendBlock.din = s.din := rfl
@[simp] theorem appendBlock_dout : s.appendBlock.dout = s.dout := rfl
@[simp] theorem appendBlock_k : s.appendBlock.k = s.k := rfl
@[simp] theorem appendBlock_n : s.appendBlock.n = s.n := rfl
@[simp] theorem appendBlock_c : s.appendBlock.c = s.c := rfl
@[simp] theorem appendBlock_pend : s.appendBlock.pend = s.pend ++ s.dp.bytes := rfl
@[simp] theorem appendBlock_configured : s.appendBlock.configured = s.configured := rfl
@[simp] theorem appendBlock_wrapped : s.appendBlock.wrapped = s.wrapped := rfl
@[simp] theorem appendBlock_errCode : s.appendBlock.errCode = s.errCode := rfl
@[simp] theorem appendBlock_inflight : s.appendBlock.inflight = s.inflight := rfl
@[simp] theorem appendBlock_dp : s.appendBlock.dp = s.dp := rfl
@[simp] theorem appendBlock_rdata : s.appendBlock.rdata = s.rdata := rfl
@[simp] theorem appendBlock_tick : s.appendBlock.tick = s.tick := rfl
@[simp] theorem appendBlock_input : s.appendBlock.input = s.input := rfl

end appendBlock

section drop
variable (m : Nat) (s : State)

@[simp] theorem drop_keyStage : (s.drop m).keyStage = s.keyStage := rfl
@[simp] theorem drop_keyMask : (s.drop m).keyMask = s.keyMask := rfl
@[simp] theorem drop_nonceStage : (s.drop m).nonceStage = s.nonceStage := rfl
@[simp] theorem drop_nonceMask : (s.drop m).nonceMask = s.nonceMask := rfl
@[simp] theorem drop_ctrStage : (s.drop m).ctrStage = s.ctrStage := rfl
@[simp] theorem drop_din : (s.drop m).din = s.din := rfl
@[simp] theorem drop_dout : (s.drop m).dout = s.dout := rfl
@[simp] theorem drop_k : (s.drop m).k = s.k := rfl
@[simp] theorem drop_n : (s.drop m).n = s.n := rfl
@[simp] theorem drop_c : (s.drop m).c = s.c := rfl
@[simp] theorem drop_pend : (s.drop m).pend = s.pend.drop m := rfl
@[simp] theorem drop_configured : (s.drop m).configured = s.configured := rfl
@[simp] theorem drop_wrapped : (s.drop m).wrapped = s.wrapped := rfl
@[simp] theorem drop_errCode : (s.drop m).errCode = s.errCode := rfl
@[simp] theorem drop_inflight : (s.drop m).inflight = s.inflight := rfl
@[simp] theorem drop_dp : (s.drop m).dp = s.dp := rfl
@[simp] theorem drop_rdata : (s.drop m).rdata = s.rdata := rfl
@[simp] theorem drop_tick : (s.drop m).tick = s.tick := rfl
@[simp] theorem drop_input : (s.drop m).input = s.input := rfl

end drop

section clearWrapped
variable (b : Bool) (s : State)

@[simp] theorem clearWrapped_keyStage : (s.clearWrapped b).keyStage = s.keyStage := rfl
@[simp] theorem clearWrapped_keyMask : (s.clearWrapped b).keyMask = s.keyMask := rfl
@[simp] theorem clearWrapped_nonceStage : (s.clearWrapped b).nonceStage = s.nonceStage := rfl
@[simp] theorem clearWrapped_nonceMask : (s.clearWrapped b).nonceMask = s.nonceMask := rfl
@[simp] theorem clearWrapped_ctrStage : (s.clearWrapped b).ctrStage = s.ctrStage := rfl
@[simp] theorem clearWrapped_din : (s.clearWrapped b).din = s.din := rfl
@[simp] theorem clearWrapped_dout : (s.clearWrapped b).dout = s.dout := rfl
@[simp] theorem clearWrapped_k : (s.clearWrapped b).k = s.k := rfl
@[simp] theorem clearWrapped_n : (s.clearWrapped b).n = s.n := rfl
@[simp] theorem clearWrapped_c : (s.clearWrapped b).c = s.c := rfl
@[simp] theorem clearWrapped_pend : (s.clearWrapped b).pend = s.pend := rfl
@[simp] theorem clearWrapped_configured : (s.clearWrapped b).configured = s.configured := rfl
@[simp] theorem clearWrapped_wrapped : (s.clearWrapped b).wrapped = (s.wrapped && !b) := rfl
@[simp] theorem clearWrapped_errCode : (s.clearWrapped b).errCode = s.errCode := rfl
@[simp] theorem clearWrapped_inflight : (s.clearWrapped b).inflight = s.inflight := rfl
@[simp] theorem clearWrapped_dp : (s.clearWrapped b).dp = s.dp := rfl
@[simp] theorem clearWrapped_rdata : (s.clearWrapped b).rdata = s.rdata := rfl
@[simp] theorem clearWrapped_tick : (s.clearWrapped b).tick = s.tick := rfl
@[simp] theorem clearWrapped_input : (s.clearWrapped b).input = s.input := rfl

end clearWrapped

section clearErr
variable (b : Bool) (s : State)

@[simp] theorem clearErr_keyStage : (s.clearErr b).keyStage = s.keyStage := rfl
@[simp] theorem clearErr_keyMask : (s.clearErr b).keyMask = s.keyMask := rfl
@[simp] theorem clearErr_nonceStage : (s.clearErr b).nonceStage = s.nonceStage := rfl
@[simp] theorem clearErr_nonceMask : (s.clearErr b).nonceMask = s.nonceMask := rfl
@[simp] theorem clearErr_ctrStage : (s.clearErr b).ctrStage = s.ctrStage := rfl
@[simp] theorem clearErr_din : (s.clearErr b).din = s.din := rfl
@[simp] theorem clearErr_dout : (s.clearErr b).dout = s.dout := rfl
@[simp] theorem clearErr_k : (s.clearErr b).k = s.k := rfl
@[simp] theorem clearErr_n : (s.clearErr b).n = s.n := rfl
@[simp] theorem clearErr_c : (s.clearErr b).c = s.c := rfl
@[simp] theorem clearErr_pend : (s.clearErr b).pend = s.pend := rfl
@[simp] theorem clearErr_configured : (s.clearErr b).configured = s.configured := rfl
@[simp] theorem clearErr_wrapped : (s.clearErr b).wrapped = s.wrapped := rfl
@[simp] theorem clearErr_errCode : (s.clearErr b).errCode = (if b then .none else s.errCode) := rfl
@[simp] theorem clearErr_inflight : (s.clearErr b).inflight = s.inflight := rfl
@[simp] theorem clearErr_dp : (s.clearErr b).dp = s.dp := rfl
@[simp] theorem clearErr_rdata : (s.clearErr b).rdata = s.rdata := rfl
@[simp] theorem clearErr_tick : (s.clearErr b).tick = s.tick := rfl
@[simp] theorem clearErr_input : (s.clearErr b).input = s.input := rfl

end clearErr

section resetEdge
variable (p : Option Access) (s : State)

@[simp] theorem resetEdge_keyStage : (s.resetEdge p).keyStage = State.reset.keyStage := rfl
@[simp] theorem resetEdge_keyMask : (s.resetEdge p).keyMask = State.reset.keyMask := rfl
@[simp] theorem resetEdge_nonceStage : (s.resetEdge p).nonceStage = State.reset.nonceStage := rfl
@[simp] theorem resetEdge_nonceMask : (s.resetEdge p).nonceMask = State.reset.nonceMask := rfl
@[simp] theorem resetEdge_ctrStage : (s.resetEdge p).ctrStage = State.reset.ctrStage := rfl
@[simp] theorem resetEdge_din : (s.resetEdge p).din = State.reset.din := rfl
@[simp] theorem resetEdge_dout : (s.resetEdge p).dout = State.reset.dout := rfl
@[simp] theorem resetEdge_k : (s.resetEdge p).k = State.reset.k := rfl
@[simp] theorem resetEdge_n : (s.resetEdge p).n = State.reset.n := rfl
@[simp] theorem resetEdge_c : (s.resetEdge p).c = State.reset.c := rfl
@[simp] theorem resetEdge_pend : (s.resetEdge p).pend = State.reset.pend := rfl
@[simp] theorem resetEdge_configured : (s.resetEdge p).configured = State.reset.configured := rfl
@[simp] theorem resetEdge_wrapped : (s.resetEdge p).wrapped = State.reset.wrapped := rfl
@[simp] theorem resetEdge_errCode : (s.resetEdge p).errCode = State.reset.errCode := rfl
@[simp] theorem resetEdge_inflight : (s.resetEdge p).inflight = State.reset.inflight := rfl
@[simp] theorem resetEdge_dp : (s.resetEdge p).dp = State.reset.dp.dead s.tick := rfl
@[simp] theorem resetEdge_rdata : (s.resetEdge p).rdata = s.rdataUnderReset p := rfl
@[simp] theorem resetEdge_tick : (s.resetEdge p).tick = s.tick + 1 := rfl
@[simp] theorem resetEdge_input : (s.resetEdge p).input = s.input := rfl

end resetEdge

/-- `BUSY` after a completion, an issue and a reset edge (R575, R556, R700). -/
@[simp] theorem complete_busy (s : State) : s.complete.busy = false := rfl
@[inherit_doc complete_busy, simp] theorem issue_busy (cmd : Word) (s : State) : (s.issue cmd).busy = true := rfl
@[inherit_doc complete_busy, simp] theorem resetEdge_busy (p : Option Access) (s : State) : (s.resetEdge p).busy = false := rfl

/-- `BUSY` is 1 exactly when a command is held (R116, R117). -/
theorem busy_iff (s : State) : s.busy = true ↔ ∃ f, s.inflight = some f := Option.isSome_iff_exists

end Sys2Proof.Machine.State
end

