-- ==== Sys2Proof/Laws/Ops.lean ====
section
/-! SUPPORT. What each shared operation can do, said once: the keystream procedure (R455 to R461), a completion (R575), one
engine step, one step. -/

namespace Sys2Proof.Machine

namespace State

/-! ### REFILL, TAKE, MUX -/

/-- REFILL with enough bytes in `PEND` does nothing (R457). -/
theorem refill_of_le {n : Nat} {s : State} (h : n ≤ s.pend.length) : s.refill n = s :=
  if_neg (Nat.not_lt.mpr h)

/-- REFILL with too few runs one block and increments (R457). -/
theorem refill_of_lt {n : Nat} {s : State} (h : s.pend.length < n) :
    s.refill n = (s.runBlock s.k s.n s.c).appendBlock.increment := if_pos h

/-- `PEND` after REFILL (R457). -/
@[simp] theorem refill_pend (n : Nat) (s : State) :
    (s.refill n).pend = if s.pend.length < n then s.pend ++ block s.k s.n s.c else s.pend := by
  unfold refill; split <;> simp

/-- `C` after REFILL (R457, R459). -/
@[simp] theorem refill_c (n : Nat) (s : State) : (s.refill n).c = if s.pend.length < n then s.c + 1 else s.c := by
  unfold refill; split <;> simp

/-- `WRAPPED` after REFILL (R459). -/
@[simp] theorem refill_wrapped (n : Nat) (s : State) :
    (s.refill n).wrapped = if s.pend.length < n then s.wrapped || s.c == BitVec.allOnes 64 else s.wrapped := by
  unfold refill; split <;> simp

/-- What REFILL leaves: everything but `PEND`, `C`, `WRAPPED`, the dead datapath and the count of free values. -/
theorem refill_frame (n : Nat) (s : State) :
    { s.refill n with pend := s.pend, c := s.c, wrapped := s.wrapped, dp := s.dp, tick := s.tick } = s := by
  unfold refill; split <;> rfl

/-- After REFILL there are `n` bytes to take (R456, R458). -/
theorem le_refill_length {n : Nat} {s : State} (h : n ≤ 64) : n ≤ (s.refill n).pend.length := by
  rw [refill_pend]
  split
  · rw [List.length_append, block_length]; omega
  · omega

/-! The fields REFILL leaves as they were (R457). -/

section refill
variable (m : Nat) (s : State)

@[simp] theorem refill_keyStage : (s.refill m).keyStage = s.keyStage := by unfold refill; split <;> rfl
@[simp] theorem refill_keyMask : (s.refill m).keyMask = s.keyMask := by unfold refill; split <;> rfl
@[simp] theorem refill_nonceStage : (s.refill m).nonceStage = s.nonceStage := by unfold refill; split <;> rfl
@[simp] theorem refill_nonceMask : (s.refill m).nonceMask = s.nonceMask := by unfold refill; split <;> rfl
@[simp] theorem refill_ctrStage : (s.refill m).ctrStage = s.ctrStage := by unfold refill; split <;> rfl
@[simp] theorem refill_din : (s.refill m).din = s.din := by unfold refill; split <;> rfl
@[simp] theorem refill_dout : (s.refill m).dout = s.dout := by unfold refill; split <;> rfl
@[simp] theorem refill_k : (s.refill m).k = s.k := by unfold refill; split <;> rfl
@[simp] theorem refill_n : (s.refill m).n = s.n := by unfold refill; split <;> rfl
@[simp] theorem refill_configured : (s.refill m).configured = s.configured := by unfold refill; split <;> rfl
@[simp] theorem refill_errCode : (s.refill m).errCode = s.errCode := by unfold refill; split <;> rfl
@[simp] theorem refill_inflight : (s.refill m).inflight = s.inflight := by unfold refill; split <;> rfl
@[simp] theorem refill_rdata : (s.refill m).rdata = s.rdata := by unfold refill; split <;> rfl
@[simp] theorem refill_input : (s.refill m).input = s.input := by unfold refill; split <;> rfl

end refill

/-- STREAM (R455), field by field. -/
@[simp] theorem stream_dout (n : Nat) (d : Word) (s : State) :
    (s.stream n d).dout = mux n d ((s.refill n).pend.take n) := rfl
@[inherit_doc stream_dout, simp] theorem stream_pend (n : Nat) (d : Word) (s : State) :
    (s.stream n d).pend = (s.refill n).pend.drop n := rfl
@[inherit_doc stream_dout, simp] theorem stream_c (n : Nat) (d : Word) (s : State) :
    (s.stream n d).c = (s.refill n).c := rfl
@[inherit_doc stream_dout, simp] theorem stream_wrapped (n : Nat) (d : Word) (s : State) :
    (s.stream n d).wrapped = (s.refill n).wrapped := rfl

/-! The fields STREAM leaves as they were (R450). -/

section stream
variable (m : Nat) (d : Word) (s : State)

@[simp] theorem stream_keyStage : (s.stream m d).keyStage = s.keyStage := refill_keyStage m s
@[simp] theorem stream_keyMask : (s.stream m d).keyMask = s.keyMask := refill_keyMask m s
@[simp] theorem stream_nonceStage : (s.stream m d).nonceStage = s.nonceStage := refill_nonceStage m s
@[simp] theorem stream_nonceMask : (s.stream m d).nonceMask = s.nonceMask := refill_nonceMask m s
@[simp] theorem stream_ctrStage : (s.stream m d).ctrStage = s.ctrStage := refill_ctrStage m s
@[simp] theorem stream_din : (s.stream m d).din = s.din := refill_din m s
@[simp] theorem stream_k : (s.stream m d).k = s.k := refill_k m s
@[simp] theorem stream_n : (s.stream m d).n = s.n := refill_n m s
@[simp] theorem stream_configured : (s.stream m d).configured = s.configured := refill_configured m s
@[simp] theorem stream_errCode : (s.stream m d).errCode = s.errCode := refill_errCode m s
@[simp] theorem stream_inflight : (s.stream m d).inflight = s.inflight := refill_inflight m s
@[simp] theorem stream_rdata : (s.stream m d).rdata = s.rdata := refill_rdata m s
@[simp] theorem stream_input : (s.stream m d).input = s.input := refill_input m s

end stream

/-- What STREAM leaves (R450): everything but `DOUT`, `PEND`, `C`, `WRAPPED`, the dead datapath and the count of free values. -/
theorem stream_frame (n : Nat) (d : Word) (s : State) :
    { s.stream n d with
      dout := s.dout, pend := s.pend, c := s.c, wrapped := s.wrapped, dp := s.dp, tick := s.tick } = s := by
  unfold stream refill; split <;> rfl

/-- A stream command either raises one error or runs the procedure (R450, R610). -/
theorem streamCommand_cases (len : BitVec 3) (d : Word) (s : State) :
    (4 < len.toNat ∧ s.streamCommand len d = s.raise .illegalLength) ∨
    (len.toNat ≤ 4 ∧ s.configured = false ∧ s.streamCommand len d = s.raise .notConfigured) ∨
    (len.toNat ≤ 4 ∧ s.configured = true ∧ s.streamCommand len d = s.stream len.toNat d) := by
  unfold streamCommand Config.lenMax
  by_cases h : 4 < len.toNat
  · exact .inl ⟨h, if_pos h⟩
  · rw [if_neg h]
    by_cases hc : s.configured = false
    · exact .inr (.inl ⟨Nat.le_of_not_lt h, hc, if_pos hc⟩)
    · exact .inr (.inr ⟨Nat.le_of_not_lt h, by simpa using hc, if_neg hc⟩)

end State

/-- Bit `j` of a word put together from its bytes (R11). -/
theorem le32_getLsbD (b0 b1 b2 b3 : Byte) (j : Nat) :
    (le32 b0 b1 b2 b3).getLsbD j =
      if j < 8 then b0.getLsbD j else if j - 8 < 8 then b1.getLsbD (j - 8)
      else if j - 8 - 8 < 8 then b2.getLsbD (j - 8 - 8) else b3.getLsbD (j - 8 - 8 - 8) := by
  have h1 := BitVec.getLsbD_append (x := (b3 ++ b2 ++ b1 : BitVec 24)) (y := b0) (i := j)
  have h2 := BitVec.getLsbD_append (x := (b3 ++ b2 : BitVec 16)) (y := b1) (i := j - 8)
  have h3 := BitVec.getLsbD_append (x := b3) (y := b2) (i := j - 8 - 8)
  rw [h3] at h2
  rw [h2] at h1
  exact h1

/-- The lanes of a word put together from its bytes (R11, R204). -/
@[simp] theorem lane_le32_0 (b0 b1 b2 b3 : Byte) : lane (le32 b0 b1 b2 b3) 0 = b0 := by
  apply BitVec.eq_of_getLsbD_eq; intro i hi
  simp [lane, le32_getLsbD, hi]
@[inherit_doc lane_le32_0, simp] theorem lane_le32_1 (b0 b1 b2 b3 : Byte) : lane (le32 b0 b1 b2 b3) 1 = b1 := by
  apply BitVec.eq_of_getLsbD_eq; intro i hi
  simp [lane, le32_getLsbD, hi]
@[inherit_doc lane_le32_0, simp] theorem lane_le32_2 (b0 b1 b2 b3 : Byte) : lane (le32 b0 b1 b2 b3) 2 = b2 := by
  apply BitVec.eq_of_getLsbD_eq; intro i hi
  have h : 16 + i - 8 - 8 = i := by omega
  simp [lane, le32_getLsbD, hi, show ¬ 16 + i < 8 by omega, show ¬ 16 + i - 8 < 8 by omega, h]
@[inherit_doc lane_le32_0, simp] theorem lane_le32_3 (b0 b1 b2 b3 : Byte) : lane (le32 b0 b1 b2 b3) 3 = b3 := by
  apply BitVec.eq_of_getLsbD_eq; intro i hi
  have h : 24 + i - 8 - 8 - 8 = i := by omega
  simp [lane, le32_getLsbD, hi, show ¬ 24 + i < 8 by omega, show ¬ 24 + i - 8 < 8 by omega,
    show ¬ 24 + i - 8 - 8 < 8 by omega, h]

/-- The bytes of a word put together from them (R11). -/
@[simp] theorem bytesLe_le32 (b0 b1 b2 b3 : Byte) : bytesLe (le32 b0 b1 b2 b3) = [b0, b1, b2, b3] := by
  simp [bytesLe]

/-- A word is put together from its lanes (R11, R204). -/
theorem le32_lanes (w : Word) : le32 (lane w 0) (lane w 1) (lane w 2) (lane w 3) = w := by
  apply BitVec.eq_of_getLsbD_eq; intro i hi
  rw [le32_getLsbD]
  by_cases h1 : i < 8
  · simp [lane, h1]
  · by_cases h2 : i - 8 < 8
    · simp [lane, h1, h2, show 8 + (i - 8) = i by omega]
    · by_cases h3 : i - 8 - 8 < 8
      · simp [lane, h1, h2, h3, show 16 + (i - 8 - 8) = i by omega]
      · simp [lane, h1, h2, h3, show i - 8 - 8 - 8 < 8 by omega, show 24 + (i - 8 - 8 - 8) = i by omega]

/-- A lane of `DOUT` (R460, R461). -/
theorem lane_mux (n : Nat) (d : Word) (t : List Byte) (i : Fin 4) : lane (mux n d t) i = muxLane n d t i := by
  match i with
  | 0 => exact lane_le32_0 ..
  | 1 => exact lane_le32_1 ..
  | 2 => exact lane_le32_2 ..
  | 3 => exact lane_le32_3 ..

/-! ### Halves and masks -/

/-- The halves of a 64-bit register put together from halves (R565, R566). -/
@[simp] theorem low_halves (hi lo : Word) : low (halves hi lo) = lo := by
  apply BitVec.eq_of_getLsbD_eq; intro i hi'
  have h := BitVec.getLsbD_append (x := hi) (y := lo) (i := i)
  simp only [low, BitVec.getLsbD_extractLsb', halves, Nat.zero_add, hi', decide_true, Bool.true_and]
  simpa [hi'] using h
@[inherit_doc low_halves, simp] theorem high_halves (hi lo : Word) : high (halves hi lo) = hi := by
  apply BitVec.eq_of_getLsbD_eq; intro i hi'
  have h := BitVec.getLsbD_append (x := hi) (y := lo) (i := 32 + i)
  simp only [high, BitVec.getLsbD_extractLsb', halves, hi', decide_true, Bool.true_and]
  simpa [hi'] using h

/-- The bits of a mask with one bit set as well (R567, R569). -/
theorem setBit_getLsbD {w : Nat} (mask : BitVec w) (i j : Nat) (hj : j < w) :
    (setBit mask i).getLsbD j = (mask.getLsbD j || decide (j = i)) := by
  simp only [setBit, BitVec.getLsbD_or, BitVec.getLsbD_shiftLeft, hj, decide_true, Bool.true_and]
  by_cases h : j < i
  · simp [h, Nat.ne_of_lt h]
  · by_cases he : j = i
    · subst he; simp; right; omega
    · have : j - i ≠ 0 := by omega
      simp [h, he, this]

/-! ### A completion -/

/-- INIT with a key word missing (R604). -/
theorem initBody_key {f : Inflight} (h : f.kmask ≠ 0xFF) (s : State) : initBody f s = s.raise .invalidKeySize := if_pos h
/-- INIT with a whole key and a nonce word missing (R605). -/
theorem initBody_nonce {f : Inflight} (hk : f.kmask = 0xFF) (hn : f.nmask ≠ 0x3) (s : State) :
    initBody f s = s.raise .invalidNonceSize := (if_neg (not_not.mpr hk)).trans (if_pos hn)
/-- INIT with both whole (R502). -/
theorem initBody_ok {f : Inflight} (hk : f.kmask = 0xFF) (hn : f.nmask = 0x3) (s : State) :
    initBody f s =
      { s with k := f.key, n := f.nonce, c := f.ctr, pend := [], wrapped := false, configured := true } :=
  (if_neg (not_not.mpr hk)).trans (if_neg (not_not.mpr hn))
/-- SET_COUNTER unconfigured (R606). -/
theorem setCounterBody_not {s : State} (h : s.configured = false) (f : Inflight) :
    setCounterBody f s = s.raise .notConfigured := if_pos h
/-- SET_COUNTER configured (R506). -/
theorem setCounterBody_ok {s : State} (h : s.configured = true) (f : Inflight) :
    setCounterBody f s = { s with c := f.ctr, pend := [] } := if_neg (by simp [h])

/-- No command in flight: nothing to complete (R575). -/
@[simp] theorem completing_none {s : State} (h : s.inflight = none) (body : Inflight → State → State) :
    completing s body = .next s := by simp [completing, h]

/-- A command in flight: its body, then `BUSY <- 0` (R575). -/
@[simp] theorem completing_some {s : State} {f : Inflight} (h : s.inflight = some f) (body : Inflight → State → State) :
    completing s body = .next (body f s).complete := by simp [completing, h]

/-- What ENGINE_STEP does to the state before `BUSY <- 0` (R575). -/
def commandBody (f : Inflight) (s : State) : State :=
  match decodeCommand f.cmd with
  | .illegal code => s.raise code
  | .nop => s
  | .init => initBody f s
  | .setCounter => setCounterBody f s
  | .keystream n => s.streamCommand n 0
  | .crypt n => s.streamCommand n f.din

/-- ENGINE_STEP with a command in flight (R575). -/
theorem execEngineStep_some {s : State} {f : Inflight} (h : s.inflight = some f) :
    execEngineStep s = .next (commandBody f s).complete := by
  unfold execEngineStep commandBody
  rw [h]
  split
  next heq => cases heq
  next f' heq =>
    cases heq
    split <;> simp [*, execNop, execInit, execSetCounter, execKeystream, execCrypt]

/-- ENGINE_STEP with none (R575): not enabled. -/
theorem execEngineStep_none {s : State} (h : s.inflight = none) : execEngineStep s = .next s := by
  simp [execEngineStep, h]

/-- Everything ENGINE_STEP can do (R575). -/
theorem execEngineStep_cases {s t : State} (h : execEngineStep s = .next t) :
    (s.inflight = none ∧ t = s) ∨ ∃ f, s.inflight = some f ∧ t = (commandBody f s).complete := by
  cases hf : s.inflight with
  | none =>
    rw [execEngineStep_none hf] at h
    exact .inl ⟨rfl, by injection h with h; exact h.symm⟩
  | some f =>
    rw [execEngineStep_some hf] at h
    exact .inr ⟨f, rfl, by injection h with h; exact h.symm⟩

/-! ### One step -/

/-- The next event runs with the rest still to come. -/
theorem step_cons {s : State} {e : Event} {rest : List Event} (h : s.input = e :: rest) :
    step s = execEvent e { s with input := rest } := by simp [step, h]

/-- With nothing still to come it is the engine's turn (R722). -/
theorem step_nil {s : State} (h : s.input = []) : step s = execEngineStep s := by simp [step, h, execEvent, exec]

end Sys2Proof.Machine
end

