-- ==== Sys2Proof/Laws/PerInstr.lean ====
section
/-! SUPPORT. Statements made of every operation, one lemma per constructor. -/

namespace Sys2Proof

/-- The write bit and the slot of a selector put together (R300). -/
theorem decodeBus_writeSel (a : BitVec 6) (d : Word) : decodeBus (writeSel a) d = decodeWrite a d := by
  have h1 : ∀ a : BitVec 6, (writeSel a).getLsbD 6 = true := by decide +kernel
  have h2 : ∀ a : BitVec 6, (writeSel a).extractLsb' 0 6 = a := by decide +kernel
  rw [decodeBus, h1, h2]; rfl

@[inherit_doc decodeBus_writeSel]
theorem decodeBus_readSel (a : BitVec 6) (d : Word) : decodeBus (readSel a) d = decodeRead a := by
  have h1 : ∀ a : BitVec 6, (readSel a).getLsbD 6 = false := by decide +kernel
  have h2 : ∀ a : BitVec 6, (readSel a).extractLsb' 0 6 = a := by decide +kernel
  rw [decodeBus, h1, h2]; rfl

/-- A slot of 18 or more is in the default row (R301). -/
theorem decodeRead_unmapped (a : BitVec 6) (h : unmappedSlot a = true) : decodeRead a = .rdUnmapped a := by
  have h18 : 18 ≤ a.toNat := by simpa [unmappedSlot] using h
  unfold decodeRead; split <;> first | rfl | omega

@[inherit_doc decodeRead_unmapped]
theorem decodeWrite_unmapped (a : BitVec 6) (d : Word) (h : unmappedSlot a = true) :
    decodeWrite a d = .wrUnmapped a d := by
  have h18 : 18 ≤ a.toNat := by simpa [unmappedSlot] using h
  unfold decodeWrite; split <;> first | rfl | omega

namespace Laws.RoundTrip

/-- Decoding the encoding of a well-formed operation gives it back (R301 to R308). -/
def Statement (i : Instr) : Prop := ∀ code, i.wf = true → encode i = some code → decode code = i

theorem of_encode {i : Instr} {c : Code} (h : encode i = some c) (hd : i.wf = true → decode c = i) : Statement i := by
  intro code hw he
  rw [h] at he
  cases he
  exact hd hw

theorem of_none {i : Instr} (h : encode i = none) : Statement i := by
  intro code _ he
  rw [h] at he
  cases he

theorem wrCtrl (d : Word) : Statement (.wrCtrl d) := of_encode rfl fun _ => rfl
theorem rdCtrl : Statement .rdCtrl := of_encode rfl fun _ => rfl
theorem rdStatus : Statement .rdStatus := of_encode rfl fun _ => rfl
theorem wrStatus (d : Word) : Statement (.wrStatus d) := of_encode rfl fun _ => rfl
theorem rdDin : Statement .rdDin := of_encode rfl fun _ => rfl
theorem wrDin (d : Word) : Statement (.wrDin d) := of_encode rfl fun _ => rfl
theorem rdDout : Statement .rdDout := of_encode rfl fun _ => rfl
theorem wrDout (d : Word) : Statement (.wrDout d) := of_encode rfl fun _ => rfl
theorem rdCtrLo : Statement .rdCtrLo := of_encode rfl fun _ => rfl
theorem rdCtrHi : Statement .rdCtrHi := of_encode rfl fun _ => rfl
theorem wrCtr (h : Fin 2) (d : Word) : Statement (.wrCtr h d) :=
  of_encode rfl fun _ => by match h with | 0 => rfl | 1 => rfl
theorem rdCtrstgLo : Statement .rdCtrstgLo := of_encode rfl fun _ => rfl
theorem rdCtrstgHi : Statement .rdCtrstgHi := of_encode rfl fun _ => rfl
theorem wrCtrstgLo (d : Word) : Statement (.wrCtrstgLo d) := of_encode rfl fun _ => rfl
theorem wrCtrstgHi (d : Word) : Statement (.wrCtrstgHi d) := of_encode rfl fun _ => rfl
theorem wrKey (k : Fin 8) (d : Word) : Statement (.wrKey k d) :=
  of_encode rfl fun _ => by fin_cases k <;> rfl
theorem rdKey (k : Fin 8) : Statement (.rdKey k) := of_encode rfl fun _ => by fin_cases k <;> rfl
theorem wrNonce (n : Fin 2) (d : Word) : Statement (.wrNonce n d) :=
  of_encode rfl fun _ => by match n with | 0 => rfl | 1 => rfl
theorem rdNonce (n : Fin 2) : Statement (.rdNonce n) := of_encode rfl fun _ => by match n with | 0 => rfl | 1 => rfl
theorem rdUnmapped (a : BitVec 6) : Statement (.rdUnmapped a) :=
  of_encode rfl fun h => (decodeBus_readSel a 0).trans (decodeRead_unmapped a h)
theorem wrUnmapped (a : BitVec 6) (d : Word) : Statement (.wrUnmapped a d) :=
  of_encode rfl fun h => (decodeBus_writeSel a d).trans (decodeWrite_unmapped a d h)
theorem nop : Statement .nop := of_encode rfl fun _ => rfl
theorem init : Statement .init := of_encode rfl fun _ => rfl
theorem setCounter : Statement .setCounter := of_encode rfl fun _ => rfl

theorem decodeRow_keystream : ∀ n : BitVec 3, decodeRow (commandWord 3 n) = .keystream n := by decide +kernel
theorem decodeRow_crypt : ∀ n : BitVec 3, decodeRow (commandWord 4 n) = .crypt n := by decide +kernel

theorem keystream (n : BitVec 3) : Statement (.keystream n) := of_encode rfl fun _ => decodeRow_keystream n
theorem crypt (n : BitVec 3) : Statement (.crypt n) := of_encode rfl fun _ => decodeRow_crypt n
theorem illegal (w : Word) : Statement (.illegal w) := of_encode rfl fun h => by
  have hw : illegalWord w = true := h
  simp only [decode, decodeRow, hw, if_true]
theorem engineStep : Statement .engineStep := of_none rfl
theorem qr (h : Half) (l : Fin 4) : Statement (.qr h l) := of_none rfl
theorem columnRound : Statement .columnRound := of_none rfl
theorem diagonalRound : Statement .diagonalRound := of_none rfl
theorem doubleRound : Statement .doubleRound := of_none rfl
theorem permute : Statement .permute := of_none rfl
theorem initState (k : KeyWords) (n : NonceWords) (c : BitVec 64) : Statement (.initState k n c) := of_none rfl
theorem feedForward : Statement .feedForward := of_none rfl
theorem serialize : Statement .serialize := of_none rfl
theorem block (k : KeyWords) (n : NonceWords) (c : BitVec 64) : Statement (.block k n c) := of_none rfl

end Laws.RoundTrip

end Sys2Proof
end

