-- ==== Sys2Proof/Laws/Step.lean ====
section
/-! SUPPORT. Everything one access and one engine step can do, said once: the lemmas to cite instead of unfolding a step. -/

namespace Sys2Proof.Machine

/-- R308 gives only the codes ILLEGAL_COMMAND and ILLEGAL_LENGTH. -/
theorem decodeCommand_illegal {w : Word} {code : ErrCode} (h : decodeCommand w = .illegal code) :
    code = .illegalCommand ∨ code = .illegalLength := by
  have agree := decodersAgree_all w
  unfold decodersAgree at agree
  rw [h] at agree
  cases code with
  | illegalCommand => exact .inl rfl
  | illegalLength => exact .inr rfl
  | _ => exact absurd agree Bool.false_ne_true

/-- R304, R308: a decoded stream command has a length of at most 4. -/
theorem decodeCommand_length {w : Word} {n : BitVec 3} (h : decodeCommand w = .keystream n ∨ decodeCommand w = .crypt n) :
    n.toNat ≤ 4 := by
  have agree := decodersAgree_all w
  unfold decodersAgree at agree
  rcases h with h | h <;> rw [h] at agree <;> revert agree <;> generalize decodeRow w = row <;> intro agree <;> cases row <;>
    first
    | exact absurd agree Bool.false_ne_true
    | exact of_decide_eq_true (Bool.and_eq_true _ _ ▸ agree :).2

/-- Everything a completion can do before `BUSY <- 0` (R575): fail with one code, do nothing, build the engine, seek, or run
the keystream procedure. -/
theorem commandBody_cases (f : Inflight) (s : State) :
    (∃ code, code ≠ .none ∧ code ≠ .busyOverrun ∧ commandBody f s = s.raise code) ∨
    (decodeCommand f.cmd = .nop ∧ commandBody f s = s) ∨
    (decodeCommand f.cmd = .init ∧ f.kmask = 0xFF ∧ f.nmask = 0x3 ∧ commandBody f s =
      { s with k := f.key, n := f.nonce, c := f.ctr, pend := [], wrapped := false, configured := true }) ∨
    (decodeCommand f.cmd = .setCounter ∧ s.configured = true ∧ commandBody f s = { s with c := f.ctr, pend := [] }) ∨
    ∃ n d, (decodeCommand f.cmd = .keystream n ∧ d = 0 ∨ decodeCommand f.cmd = .crypt n ∧ d = f.din) ∧ n.toNat ≤ 4 ∧
      s.configured = true ∧ commandBody f s = s.stream n.toNat d := by
  unfold commandBody
  split
  next code hd =>
    rcases decodeCommand_illegal hd with rfl | rfl <;> exact .inl ⟨_, by decide, by decide, rfl⟩
  next hd => exact .inr (.inl ⟨hd, rfl⟩)
  next hd =>
    by_cases hk : f.kmask = 0xFF
    · by_cases hn : f.nmask = 0x3
      · exact .inr (.inr (.inl ⟨hd, hk, hn, initBody_ok hk hn s⟩))
      · exact .inl ⟨_, by decide, by decide, initBody_nonce hk hn s⟩
    · exact .inl ⟨_, by decide, by decide, initBody_key hk s⟩
  next hd =>
    cases hc : s.configured with
    | false => exact .inl ⟨_, by decide, by decide, setCounterBody_not hc f⟩
    | true => exact .inr (.inr (.inr (.inl ⟨hd, rfl, hc ▸ setCounterBody_ok hc f⟩)))
  next n hd =>
    rcases s.streamCommand_cases n 0 with ⟨_, e⟩ | ⟨_, _, e⟩ | ⟨hn, hc, e⟩
    · exact .inl ⟨_, by decide, by decide, e⟩
    · exact .inl ⟨_, by decide, by decide, e⟩
    · exact .inr (.inr (.inr (.inr ⟨n, 0, .inl ⟨hd, rfl⟩, hn, hc, e⟩)))
  next n hd =>
    rcases s.streamCommand_cases n f.din with ⟨_, e⟩ | ⟨_, _, e⟩ | ⟨hn, hc, e⟩
    · exact .inl ⟨_, by decide, by decide, e⟩
    · exact .inl ⟨_, by decide, by decide, e⟩
    · exact .inr (.inr (.inr (.inr ⟨n, f.din, .inr ⟨hd, rfl⟩, hn, hc, e⟩)))

/-- Everything an access can do (R551): answer a read, be ignored, issue a command or be turned away, clear sticky bits, or
write one staging register. -/
theorem exec_decodeBus_cases (sel : BitVec 7) (wdata : Word) (s : State) :
    (∃ v, exec (decodeBus sel wdata) s = .next (s.read v)) ∨
    exec (decodeBus sel wdata) s = .next s ∨
    (decodeBus sel wdata = .wrCtrl wdata ∧ s.busy = true ∧
      exec (decodeBus sel wdata) s = .next (s.raise .busyOverrun)) ∨
    (decodeBus sel wdata = .wrCtrl wdata ∧ s.inflight = none ∧ exec (decodeBus sel wdata) s = .next (s.issue wdata)) ∨
    (decodeBus sel wdata = .wrStatus wdata ∧
      exec (decodeBus sel wdata) s = .next ((s.clearWrapped (wdata.getLsbD 2)).clearErr (wdata.getLsbD 3))) ∨
    (decodeBus sel wdata = .wrDin wdata ∧ exec (decodeBus sel wdata) s = .next { s with din := wdata }) ∨
    ((decodeBus sel wdata = .wrCtrstgLo wdata ∨ decodeBus sel wdata = .wrCtrstgHi wdata) ∧
      ∃ v, exec (decodeBus sel wdata) s = .next { s with ctrStage := v }) ∨
    (∃ k, decodeBus sel wdata = .wrKey k wdata ∧ exec (decodeBus sel wdata) s =
      .next { s with keyStage := s.keyStage.set k wdata, keyMask := setBit s.keyMask k }) ∨
    ∃ n, decodeBus sel wdata = .wrNonce n wdata ∧ exec (decodeBus sel wdata) s =
      .next { s with nonceStage := s.nonceStage.set n wdata, nonceMask := setBit s.nonceMask n } := by
  unfold decodeBus
  split
  · unfold decodeWrite
    split
    · cases hb : s.inflight with
      | none => exact .inr (.inr (.inr (.inl ⟨rfl, rfl, if_neg (by simp [State.busy, hb])⟩)))
      | some f => exact .inr (.inr (.inl ⟨rfl, by simp [State.busy, hb], if_pos (by simp [State.busy, hb])⟩))
    all_goals first
      | exact .inr (.inl rfl)
      | exact .inr (.inr (.inr (.inr (.inl ⟨rfl, rfl⟩))))
      | exact .inr (.inr (.inr (.inr (.inr (.inl ⟨rfl, rfl⟩)))))
      | exact .inr (.inr (.inr (.inr (.inr (.inr (.inl ⟨.inl rfl, _, rfl⟩))))))
      | exact .inr (.inr (.inr (.inr (.inr (.inr (.inl ⟨.inr rfl, _, rfl⟩))))))
      | exact .inr (.inr (.inr (.inr (.inr (.inr (.inr (.inl ⟨_, rfl, rfl⟩)))))))
      | exact .inr (.inr (.inr (.inr (.inr (.inr (.inr (.inr ⟨_, rfl, rfl⟩)))))))
  · unfold decodeRead
    split <;> exact .inl ⟨_, rfl⟩

end Sys2Proof.Machine
end

