-- ==== Sys2Proof/Tests/Slice0.lean ====
section
/-! SUPPORT. Tests. Expected values come from `95_test_vectors.md` (its row in each comment) or from a rule; words are written
out from the encodings of R301 and R303. Then one witness for each obligation that has hypotheses. -/

namespace Sys2Proof.Tests

open Sys2Proof.Machine

-- one proof after another: many at once would each take a thread
set_option Elab.async false

/-! ## States -/

/-- The state after one operation. -/
def after (i : Instr) (s : State) : State := Result.state s (exec i s)

/-- Configured(0, 0, c) of `95_test_vectors.md`. -/
def cfg (c : BitVec 64) : State :=
  { State.reset with keyMask := 0xFF, nonceMask := 0x3, ctrStage := c, c := c, configured := true }

/-- `s` once the command `w` has been issued and has completed. -/
def done (w : Word) (s : State) : State := after .engineStep (s.issue w)

/-- What `rd STATUS` returns. -/
def status (s : State) : Word := (after .rdStatus s).rdata

/-- `s` with working state `x` and input state `z`. -/
def withBlock (x z : Block) (s : State) : State := { s with dp := { s.dp with x := x, s := z } }

/-! ## WellFormed: a term that each check refuses -/

theorem test_wf_rd_unmapped : (Instr.rdUnmapped 17).wf = false ∧ (Instr.rdUnmapped 18).wf = true := by decide
theorem test_wf_wr_unmapped : (Instr.wrUnmapped 0 5).wf = false ∧ (Instr.wrUnmapped 63 5).wf = true := by decide
theorem test_wf_illegal : (Instr.illegal 0x43).wf = false ∧ (Instr.illegal 0x53).wf = false ∧ (Instr.illegal 0x5).wf = true := by
  decide

/-! ## Decoding: words written out bit by bit (R300 to R303) -/

theorem test_decode_reads :
    decodeTableWord 8 0b0000000 = some .rdCtrl ∧ decodeTableWord 8 0b0000001 = some .rdStatus ∧
    decodeTableWord 8 0b0000010 = some .rdDin ∧ decodeTableWord 8 0b0000011 = some .rdDout ∧
    decodeTableWord 8 0b0000100 = some .rdCtrLo ∧ decodeTableWord 8 0b0000101 = some .rdCtrHi ∧
    decodeTableWord 8 0b0000110 = some .rdCtrstgLo ∧ decodeTableWord 8 0b0000111 = some .rdCtrstgHi ∧
    decodeTableWord 8 0b0001101 = some (.rdKey 5) ∧ decodeTableWord 8 0b0010001 = some (.rdNonce 1) ∧
    decodeTableWord 8 0b0110000 = some (.rdUnmapped 48) := by decide +kernel

theorem test_decode_writes :
    decodeTableWord 8 0b1000000 = some (.wrCtrl 0) ∧ decodeTableWord 8 0b1000001 = some (.wrStatus 0) ∧
    decodeTableWord 8 0b1000010 = some (.wrDin 0) ∧ decodeTableWord 8 0b1000011 = some (.wrDout 0) ∧
    decodeTableWord 8 0b1000101 = some (.wrCtr 1 0) ∧ decodeTableWord 8 0b1000110 = some (.wrCtrstgLo 0) ∧
    decodeTableWord 8 0b1000111 = some (.wrCtrstgHi 0) ∧ decodeTableWord 8 0b1001110 = some (.wrKey 6 0) ∧
    decodeTableWord 8 0b1010000 = some (.wrNonce 0 0) ∧ decodeTableWord 8 0b1010010 = some (.wrUnmapped 18 0) := by
  decide +kernel

theorem test_decode_commands :
    decodeTableWord 32 0b0000000 = some .nop ∧ decodeTableWord 32 0b0000001 = some .init ∧
    decodeTableWord 32 0b0000010 = some .setCounter ∧ decodeTableWord 32 0b0110011 = some (.keystream 3) ∧
    decodeTableWord 32 0b1010011 = some (.keystream 5) ∧ decodeTableWord 32 0b0010100 = some (.crypt 1) ∧
    decodeTableWord 32 0b0010001 = some (.illegal 0x11) ∧ decodeTableWord 32 0b0000101 = some (.illegal 0x5) := by
  decide +kernel

/-- A write carries its value, at any of the four addresses of its slot (R300, R206). -/
theorem test_access_row :
    ({ we := true, addr := 0x2F, wdata := 0x12345678 } : Access).instr = .wrKey 3 0x12345678 ∧
    ({ we := false, addr := 0x0B, wdata := 7 } : Access).instr = .rdDin := by decide +kernel

/-- The very next step runs the operation presented: KEYSTREAM 4 out of reset fails with NOT_CONFIGURED (L2.9). -/
theorem test_fetch_word :
    (Result.state .reset (step (State.reset.withFetchWord 32 0x43))).errCode = .notConfigured ∧
    (Result.state .reset (step (State.reset.withFetchWord 8 0b1001011))).keyMask = 0x08 := by decide +kernel

/-! ## The value primitives (R10, R11) -/

theorem test_rotl : rotl32 0x80000001 7 = 0xC0 := by decide
theorem test_bytes_le : bytesLe 0xade0b876 = [0x76, 0xb8, 0xe0, 0xad] ∧ le32 0x76 0xb8 0xe0 0xad = 0xade0b876 := by decide

/-! ## The block function -/

/-- L2.1. -/
theorem test_qr_single_bits :
    qr 1 0 0 0 = ⟨0x10000001, 0x80808808, 0x01010110, 0x01000110⟩ ∧
    qr 0 0 0 1 = ⟨0x10000000, 0x80800808, 0x01010010, 0x01000010⟩ := by decide +kernel
/-- L2.1. -/
theorem test_qr_wraps :
    qr 0xffffffff 0xffffffff 0xffffffff 0xffffffff = ⟨0xf0000ffd, 0x88790878, 0x0110fdef, 0x010ffdf0⟩ ∧
    qr 0x11111111 0x01020304 0x9b8d6f43 0x01234567 = ⟨0xea2a92f4, 0xcb1cf8ce, 0x4581472e, 0x5881c4bb⟩ := by decide +kernel

/-- The all-zero input state (L2.2). -/
def zeroInput : Block := #v[0x61707865, 0x3320646e, 0x79622d32, 0x6b206574, 0, 0, 0, 0, 0, 0, 0, 0, 0, 0, 0, 0]
/-- COLUMN_ROUND of it (L2.2). -/
def zeroColumn : Block :=
  #v[0xb7877feb, 0x16526ab4, 0xa0f85005, 0xb1d26bcb, 0x4a7d5c86, 0xfae0ea21, 0x66e11e68, 0xe3a851a6,
     0x5a83fd3f, 0xa0c7c792, 0xf75be0ef, 0x0b7556f4, 0xe21e9bcf, 0x3c599472, 0xca29678d, 0xa600ebd4]
/-- One DOUBLE_ROUND of it (L2.2). -/
def zeroDouble : Block :=
  #v[0xe45fd249, 0x1bb820a6, 0xe31a88ea, 0xe667a9fe, 0x2a3bf673, 0x86bf4098, 0x460b500a, 0xfa169886,
     0x538dca0e, 0x0c439641, 0x00fa16bc, 0x8a08812a, 0x6bbf8b09, 0xc33013d6, 0xbb9f9849, 0x87c62165]
/-- PERMUTE of it (L2.2). -/
def zeroPermute : Block :=
  #v[0x4c704011, 0x5d1d8d32, 0x6c08300e, 0xbd9d20df, 0xb819d2bd, 0x1aed8da0, 0xccef36a8, 0xc70d778b,
     0x7c5941da, 0x8d485751, 0x3fe02477, 0x374ad8b8, 0xf4b8436a, 0x1ca11815, 0x69b687c3, 0x8665eeb2]

/-- L2.1, L2.2: column 0 of the all-zero state, the other words as they were. -/
theorem test_qr_row :
    (after (.qr .column 0) (withBlock zeroInput zeroInput .reset)).dp.x =
      #v[0xb7877feb, 0x3320646e, 0x79622d32, 0x6b206574, 0x4a7d5c86, 0, 0, 0, 0x5a83fd3f, 0, 0, 0, 0xe21e9bcf, 0, 0, 0] := by
  decide +kernel
/-- L2.2. -/
theorem test_column_round :
    (after .columnRound (withBlock zeroInput zeroInput .reset)).dp.x = zeroColumn := by decide +kernel
/-- L2.2. -/
theorem test_diagonal_round :
    (after .diagonalRound (withBlock zeroColumn zeroInput .reset)).dp.x = zeroDouble := by decide +kernel
/-- L2.2. -/
theorem test_double_round :
    (after .doubleRound (withBlock zeroInput zeroInput .reset)).dp.x = zeroDouble := by decide +kernel
/-- L2.2; RND after the twenty steps (R409). -/
theorem test_permute :
    (after .permute (withBlock zeroInput zeroInput .reset)).dp.x = zeroPermute ∧
    (after .permute (withBlock zeroInput zeroInput .reset)).dp.rnd = 20 := by decide +kernel
/-- L2.3. -/
theorem test_init_state :
    (after (.initState #v[0x03020100, 0x07060504, 0x0b0a0908, 0x0f0e0d0c, 0x13121110, 0x17161514, 0x1b1a1918, 0x1f1e1d1c]
      #v[0x03020100, 0x07060504] 0x0000000100000002) .reset).dp.s =
      #v[0x61707865, 0x3320646e, 0x79622d32, 0x6b206574, 0x03020100, 0x07060504, 0x0b0a0908, 0x0f0e0d0c,
         0x13121110, 0x17161514, 0x1b1a1918, 0x1f1e1d1c, 2, 1, 0x03020100, 0x07060504] := by decide +kernel
/-- L2.2; the words with no input word are those of PERMUTE. -/
theorem test_feed_forward :
    (after .feedForward (withBlock zeroPermute zeroInput .reset)).dp.z =
      #v[0xade0b876, 0x903df1a0, 0xe56a5d40, 0x28bd8653, 0xb819d2bd, 0x1aed8da0, 0xccef36a8, 0xc70d778b,
         0x7c5941da, 0x8d485751, 0x3fe02477, 0x374ad8b8, 0xf4b8436a, 0x1ca11815, 0x69b687c3, 0x8665eeb2] := by decide +kernel
/-- L2.2, L1.1: the first and the last bytes. -/
theorem test_serialize :
    let t := after .serialize { State.reset with dp := { Datapath.reset with z := zeroPermute.set 0 0xade0b876 } }
    t.dp.bytes.take 4 = [0x76, 0xb8, 0xe0, 0xad] ∧ t.dp.bytes.drop 60 = [0xb2, 0xee, 0x65, 0x86] := by decide +kernel
/-- L1.1, and L2.4 with a counter whose high word is not 0. -/
theorem test_block :
    (after (.block KeyWords.zero NonceWords.zero 0) .reset).dp.bytes.take 8 =
      [0x76, 0xb8, 0xe0, 0xad, 0xa0, 0xf1, 0x3d, 0x90] ∧
    (after (.block KeyWords.zero NonceWords.zero 0x0000000100000002) .reset).dp.bytes.take 4 = [0x89, 0xb1, 0x88, 0x93] := by
  decide +kernel
/-- L2.6, TC5, the last bytes of block 3. -/
theorem test_block_key :
    (block #v[0x03020100, 0x07060504, 0x0b0a0908, 0x0f0e0d0c, 0x13121110, 0x17161514, 0x1b1a1918, 0x1f1e1d1c]
      #v[0x03020100, 0x07060504] 3).drop 60 = [0x8f, 0xab, 0x78, 0xc9] := by
  decide +kernel

/-! ## Commands -/

/-- L2.5 row 2, R461: one byte, the other lanes 0; the refill moved the counter. -/
theorem test_keystream_one :
    let t := done 0x13 (cfg 0)
    t.dout = 0x00000076 ∧ t.c = 1 ∧ status t = 0x03ff3f02 := by decide +kernel
/-- L2.5 row 3: the next four bytes, no refill. -/
theorem test_keystream_four :
    let t := done 0x43 (done 0x13 (cfg 0))
    t.dout = 0xa0ade0b8 ∧ t.c = 1 ∧ t.pend.length = 59 := by decide +kernel
/-- P2 line 16. -/
theorem test_crypt_four : (done 0x44 { cfg 0 with din := 0x6c6c6548 }).dout = 0xc18cdd3e := by decide +kernel
/-- L2.5 rows 1 and 4: no byte; two bytes with the data's other lanes dropped. -/
theorem test_crypt_short :
    let s := { cfg 0 with din := 0xdeadbeef }
    (done 0x04 s).dout = 0 ∧ (done 0x24 (done 0x43 (done 0x13 s))).dout = 0x0000831e := by decide +kernel
/-- L2.5, wrap. -/
theorem test_keystream_wraps :
    let t := done 0x43 (cfg 0xffffffffffffffff)
    t.dout = 0xd88c91d7 ∧ t.c = 0 ∧ status t = 0x03ff3c06 := by decide +kernel
/-- L2.7 row 1. -/
theorem test_nop : done 0x0 .reset = .reset := by decide +kernel
/-- L2.7 rows 2 to 4. -/
theorem test_init_fails :
    status (done 0x1 .reset) = 0x00000018 ∧ status (done 0x1 { State.reset with keyMask := 0xFF }) = 0x00ff0028 ∧
    status (done 0x1 { State.reset with keyMask := 0x7F, nonceMask := 0x3 }) = 0x037f0018 := by decide +kernel
/-- L2.7 rows 5 and 12: a success keeps ERR_CODE and takes the staged counter. -/
theorem test_init :
    let t := done 0x1 { State.reset with keyMask := 0xFF, nonceMask := 0x3, ctrStage := 0x0000000100000002, errCode := .invalidNonceSize }
    status t = 0x03ff002a ∧ t.c = 0x0000000100000002 := by decide +kernel
/-- L2.7 row 9: a seek to the current value empties the buffer. -/
theorem test_seek :
    let t := done 0x2 { done 0x13 (cfg 0) with ctrStage := 1 }
    t.c = 1 ∧ t.pend = [] ∧ (done 0x13 t).dout = 0x0000009f := by decide +kernel
/-- L2.7 row 10. -/
theorem test_set_counter_fails : status (done 0x2 .reset) = 0x00000038 := by decide +kernel
/-- L2.9: a reserved `OP`, a `LEN` on NOP, a reserved bit. -/
theorem test_illegal :
    status (done 0x5 (cfg 0)) = 0x03ff004a ∧ status (done 0x10 (cfg 0)) = 0x03ff004a ∧
    status (done 0x83 (cfg 0)) = 0x03ff004a := by decide +kernel
/-- L2.9: the length before the configuration, an illegal word before either. -/
theorem test_engine_step_priority :
    status (done 0x53 (cfg 0)) = 0x03ff005a ∧ status (done 0x53 .reset) = 0x00000058 ∧ status (done 0xd3 .reset) = 0x00000048 := by
  decide +kernel

/-! ## Accesses -/

/-- L2.9, BUSY_OVERRUN (program P4a): the second command is dropped. -/
theorem test_wr_ctrl_overrun :
    let t := after .engineStep (after (.wrCtrl 0x43) (after (.wrCtrl 0x43) (cfg 0)))
    status t = 0x03ff3c6a ∧ t.dout = 0xade0b876 := by decide +kernel
/-- L2.8 row 13: a command keeps the operands of its issue. -/
theorem test_wr_ctrl_copies :
    (after .engineStep (after (.wrDin 0x22222222) (after (.wrCtrl 0x44) { cfg 0 with din := 0x11111111 }))).dout =
      0xade0b876 ^^^ 0x11111111 := by decide +kernel
/-- L2.8 rows 1 and 2. -/
theorem test_rd_ctrl_and_status : (after .rdCtrl (cfg 5)).rdata = 0 ∧ status .reset = 0 ∧ status (cfg 0) = 0x03ff0002 := by
  decide +kernel
/-- L2.8 rows 8 and 9. -/
theorem test_wr_status :
    let s := { State.reset with wrapped := true, errCode := .illegalLength }
    (after (.wrStatus 0x4) s).wrapped = false ∧ (after (.wrStatus 0x4) s).errCode = .illegalLength ∧
    (after (.wrStatus 0x8) s).errCode = .none ∧ (after (.wrStatus 0x8) s).wrapped = true := by decide +kernel
/-- R554, R555. -/
theorem test_din : (after .rdDin (after (.wrDin 0xdeadbeef) .reset)).rdata = 0xdeadbeef := by decide +kernel
/-- L2.8 row 5. -/
theorem test_dout : (after .rdDout (after (.wrDout 0x12345678) { State.reset with dout := 0x9388b189 })).rdata = 0x9388b189 := by
  decide +kernel
/-- L2.8 row 6, L2.7 row 12. -/
theorem test_ctr :
    let s := after (.wrCtr 0 5) { State.reset with c := 0x0000000100000003 }
    (after .rdCtrLo s).rdata = 3 ∧ (after .rdCtrHi s).rdata = 1 := by decide +kernel
/-- R563 to R566: the halves do not mix. -/
theorem test_ctrstg :
    let s := after (.wrCtrstgHi 0xaaaaaaaa) (after (.wrCtrstgLo 0xbbbbbbbb) .reset)
    s.ctrStage = 0xaaaaaaaabbbbbbbb ∧ (after .rdCtrstgLo s).rdata = 0xbbbbbbbb ∧ (after .rdCtrstgHi s).rdata = 0xaaaaaaaa := by
  decide +kernel
/-- L2.8 row 3. -/
theorem test_key :
    let s := after (.wrKey 3 0x12345678) .reset
    s.keyStage = #v[0, 0, 0, 0x12345678, 0, 0, 0, 0] ∧ s.keyMask = 0x08 ∧ (after (.rdKey 3) s).rdata = 0 := by decide +kernel
/-- L2.8 row 4. -/
theorem test_nonce :
    let s := after (.wrNonce 1 0xcafef00d) .reset
    s.nonceStage = #v[0, 0xcafef00d] ∧ s.nonceMask = 2 ∧ (after (.rdNonce 1) s).rdata = 0xcafef00d := by decide +kernel
/-- L2.8 row 7. -/
theorem test_unmapped :
    after (.wrUnmapped 18 0xffffffff) (cfg 7) = cfg 7 ∧ (after (.rdUnmapped 63) { cfg 7 with rdata := 9 }).rdata = 0 := by
  decide +kernel

/-! ## Steps -/

/-- L2.10, program P6: a command in flight at a `rst` edge has no effect, and the engine is not configured. -/
theorem test_reset_edge :
    let t := bring (.reset none) ((cfg 0).issue 0x43)
    t.busy = false ∧ t.c = 0 ∧ t.dout = 0 ∧ status t = 0 ∧ t.tick = 1 := by decide +kernel
/-- Program P3 lines 1 to 3, as accesses at the port. -/
theorem test_program_error_handling :
    let s := bringAll (programEvents [.cmdKs 4, .poll 2]) .reset
    s.rdata = 0x00000038 ∧ (bringAll (programEvents [.clrerr]) s).errCode = .none := by decide +kernel
/-- Program P2 lines 13 to 16, and the register names of R310. -/
theorem test_program_encrypt :
    (bringAll (programEvents [.wr .din 0x6c6c6548, .cmdEncrypt 4, .poll 1, .rd .dout]) (cfg 0)).rdata = 0xc18cdd3e ∧
    (Reg.key 7).offset = 0x3C ∧ (Reg.nonce 1).offset = 0x44 ∧ Reg.ctrStageHi.offset = 0x1C := by decide +kernel
/-- R310, R311: loading a key, a nonce and a counter fills the staging registers and the masks. -/
theorem test_program_load :
    let s := bringAll (programEvents [.loadkey KeyWords.zero, .loadnonce #v[1, 2], .loadctr 0x0000000100000002, .cmdInit]) .reset
    s.keyMask = 0xFF ∧ s.nonceMask = 0x3 ∧ s.nonceStage = #v[1, 2] ∧ s.ctrStage = 0x0000000100000002 ∧ s.busy = true := by
  decide +kernel

/-! ## Witnesses: states and operands that meet the hypotheses of each obligation that has some -/

/-- A configured CORE with `w` in flight. -/
def flying (w : Word) : State := (cfg 0).issue w

theorem flying_inflight (w : Word) : (flying w).inflight = some ((cfg 0).capture w) := rfl

/-- The position Configured(0, 0, 0) stands at. -/
def start : Position := ⟨KeyWords.zero, NonceWords.zero, 0, 0⟩
/-- Four bytes further. -/
def later : Position := { start with total := 4 }

/-- A CORE at the position `later`, with `w` in flight. -/
def laterFlying (w : Word) : State := ({ cfg 0 with c := 1, pend := ksBytes KeyWords.zero NonceWords.zero 0 4 60 } : State).issue w

theorem cfg_at : AtPosition start (cfg 0) := ⟨rfl, rfl, rfl, by decide, by decide⟩
theorem laterFlying_at (w : Word) : AtPosition later (laterFlying w) where
  configured := rfl
  key := rfl
  nonce := rfl
  counter := (by decide : (1 : BitVec 64) = 0 + BitVec.ofNat 64 (blocksFor 4))
  buffer := congrArg (ksBytes KeyWords.zero NonceWords.zero 0 4) (by decide : 60 = 64 * blocksFor 4 - 4)

theorem flying_inv : (flying 0x43).Inv where
  level := by decide
  keyStage k h := by revert h; revert k; decide
  nonceStage n h := by revert h; revert n; decide
  masks f h := by
    cases h
    exact ⟨BitVec.and_self, BitVec.and_self⟩
  whole _ := ⟨rfl, rfl⟩
  blank h := absurd h (by decide)

/-- LEVEL's clause holds at its bound: 63 bytes. -/
theorem witness_StatusReadShowsEveryField : ∃ s : State, s.pend.length = 63 := ⟨done 0x13 (cfg 0), by decide +kernel⟩

theorem witness_KeyWriteStoresItsWordAndSetsItsMaskBit : ∃ k j : Fin 8, j ≠ k := ⟨0, 7, by decide⟩
theorem witness_NonceWriteStoresItsWordAndSetsItsMaskBit : ∃ n j : Fin 2, j ≠ n := ⟨0, 1, by decide⟩

theorem witness_CommandIssueOrOverrun :
    (∃ s : State, s.inflight = none) ∧ ∃ (s : State) (f : Inflight), s.inflight = some f :=
  ⟨⟨cfg 0, rfl⟩, flying 0x43, _, flying_inflight _⟩

theorem witness_NopCompletesWithNoEffect : ∃ (s : State) (f : Inflight), s.inflight = some f := ⟨flying 0, _, rfl⟩

/-- A clause each: a key word missing, a nonce word missing, nothing missing. -/
theorem witness_InitBuildsTheEngineOrFails :
    (∃ (s : State) (f : Inflight), s.inflight = some f ∧ f.kmask ≠ 0xFF) ∧
    (∃ (s : State) (f : Inflight), s.inflight = some f ∧ f.kmask = 0xFF ∧ f.nmask ≠ 0x3) ∧
    ∃ (s : State) (f : Inflight), s.inflight = some f ∧ f.kmask = 0xFF ∧ f.nmask = 0x3 :=
  ⟨⟨({ State.reset with keyMask := 0xFE } : State).issue 1, _, rfl, by decide⟩,
    ⟨({ State.reset with keyMask := 0xFF, nonceMask := 0x1 } : State).issue 1, _, rfl, rfl, by decide⟩,
    flying 1, _, rfl, rfl, rfl⟩

theorem witness_SetCounterSeeksOrFails :
    (∃ (s : State) (f : Inflight), s.inflight = some f ∧ s.configured = false) ∧
    ∃ (s : State) (f : Inflight), s.inflight = some f ∧ s.configured = true :=
  ⟨⟨State.reset.issue 2, _, rfl, rfl⟩, flying 2, _, rfl, rfl⟩

theorem witness_IllegalRowRecordsIllegalCommand : ∃ (s : State) (f : Inflight), s.inflight = some f := ⟨flying 5, _, rfl⟩

/-- Both rows, at the longest and the shortest length, with a refill and without. -/
theorem witness_StreamCommandsConsumeAndOutput :
    (∃ (s : State) (f : Inflight) (len : BitVec 3) (i : Instr) (d : Word), s.inflight = some f ∧ s.configured = true ∧
      len.toNat ≤ 4 ∧ (i = .keystream len ∧ d = 0 ∨ i = .crypt len ∧ d = f.din) ∧ s.pend.length < len.toNat) ∧
    ∃ (s : State) (f : Inflight) (len : BitVec 3) (i : Instr) (d : Word), s.inflight = some f ∧ s.configured = true ∧
      len.toNat ≤ 4 ∧ (i = .keystream len ∧ d = 0 ∨ i = .crypt len ∧ d = f.din) ∧ ¬ s.pend.length < len.toNat :=
  ⟨⟨flying 0x43, _, 4, .keystream 4, 0, rfl, rfl, by decide, .inl ⟨rfl, rfl⟩, by decide⟩,
    flying 0x04, _, 0, .crypt 0, _, rfl, rfl, by decide, .inr ⟨rfl, rfl⟩, by decide⟩

theorem witness_ZeroLengthStreamLeavesTheBuffer :
    (∃ (s : State) (f : Inflight) (i : Instr), s.inflight = some f ∧ (i = .keystream 0 ∨ i = .crypt 0) ∧ s.configured = true) ∧
    ∃ (s : State) (f : Inflight) (i : Instr), s.inflight = some f ∧ (i = .keystream 0 ∨ i = .crypt 0) ∧ s.configured = false :=
  ⟨⟨flying 3, _, _, rfl, .inl rfl, rfl⟩, State.reset.issue 4, _, _, rfl, .inr rfl, rfl⟩

theorem witness_AlignedKeystreamIsABlockWord :
    ∃ (s : State) (f : Inflight) (p : Position), AtPosition p s ∧ s.inflight = some f ∧ p.total % 4 = 0 ∧ p.total ≠ 0 :=
  ⟨laterFlying 0x43, _, later, laterFlying_at _, rfl, by decide, by decide⟩

/-- A command word for each clause, in the order of R610, the last one a success. -/
theorem witness_EngineStepReportsTheFirstError :
    (∃ (s : State) (f : Inflight), s.inflight = some f ∧ f.cmd = 0xd3) ∧
    (∃ (s : State) (f : Inflight), s.inflight = some f ∧ f.cmd = 0x54 ∧ s.configured = false) ∧
    (∃ (s : State) (f : Inflight), s.inflight = some f ∧ f.cmd = 0x43 ∧ s.configured = false) ∧
    (∃ (s : State) (f : Inflight), s.inflight = some f ∧ f.cmd = 0x01 ∧ f.kmask ≠ 0xFF ∧ f.nmask ≠ 0x3) ∧
    (∃ (s : State) (f : Inflight), s.inflight = some f ∧ f.cmd = 0x01 ∧ f.kmask = 0xFF ∧ f.nmask ≠ 0x3) ∧
    ∃ (s : State) (f : Inflight), s.inflight = some f ∧ f.cmd = 0x44 ∧ s.configured = true :=
  ⟨⟨State.reset.issue 0xd3, _, rfl, rfl⟩, ⟨State.reset.issue 0x54, _, rfl, rfl, rfl⟩, ⟨State.reset.issue 0x43, _, rfl, rfl, rfl⟩,
    ⟨State.reset.issue 0x01, _, rfl, rfl, by decide, by decide⟩,
    ⟨({ State.reset with keyMask := 0xFF } : State).issue 0x01, _, rfl, rfl, rfl, by decide⟩, flying 0x44, _, rfl, rfl, rfl⟩

/-- The lengths at both ends. -/
theorem witness_ListedCommandWordsAreTheLegalOnes : (∃ n : BitVec 3, n.toNat = 0) ∧ ∃ n : BitVec 3, n.toNat = 4 :=
  ⟨⟨0, by decide⟩, 4, by decide⟩

theorem witness_DecodeOfEncode : ∃ (i : Instr) (code : Code), i.wf = true ∧ encode i = some code :=
  ⟨.crypt 7, _, rfl, rfl⟩

theorem witness_AddressLowBitsAreIgnored : ∃ a b : BitVec 8, a ≠ b ∧ a.toNat / 4 = b.toNat / 4 := ⟨0x0C, 0x0F, by decide, by decide⟩

/-- An access, the engine's turn both ways, with and without a command in flight, and an idle cycle. -/
theorem witness_StepRunsTheDecodedInstruction :
    (∃ (s : State) (a : Access), s.input = [.access a]) ∧
    (∃ (s : State) (f : Inflight), s.input = [.engine] ∧ s.inflight = some f) ∧
    (∃ s : State, s.input = [] ∧ s.inflight = none) ∧ ∃ s : State, s.input = [.idle] :=
  ⟨⟨State.reset.withFetchWord 8 0, _, rfl⟩, ⟨State.reset.withFetchWord 32 0, _, rfl, rfl⟩, ⟨cfg 0, rfl, rfl⟩,
    ⟨{ cfg 0 with input := [.idle] }, rfl⟩⟩

theorem witness_ResetEdgeRestoresTheResetValues :
    ∃ (s : State) (a : Access), s.input = [.reset (some a)] ∧ a.we = false :=
  ⟨{ flying 0x43 with input := [.reset (some ⟨false, 0, 0⟩)] }, _, rfl, rfl⟩

theorem witness_AfterResetStreamsFail :
    ∃ (s : State) (w : Word), ArchReset s ∧
      w ∈ ([0x2, 0x3, 0x13, 0x23, 0x33, 0x43, 0x4, 0x14, 0x24, 0x34, 0x44] : List Word) :=
  ⟨{ State.reset with rdata := 1 }, 0x43,
    ⟨rfl, rfl, rfl, rfl, rfl, rfl, rfl, rfl, rfl, rfl, rfl, rfl, rfl, rfl, rfl⟩, by decide⟩

theorem witness_QrRowReplacesItsGroup :
    ∃ j : Fin 16, j ≠ (group .diagonal 3).a ∧ j ≠ (group .diagonal 3).b ∧ j ≠ (group .diagonal 3).c ∧ j ≠ (group .diagonal 3).d :=
  ⟨15, by decide⟩

theorem witness_LanesOfAHalfRoundCommute : ∃ lanes : List (Fin 4), lanes.Perm [0, 1, 2, 3] ∧ lanes ≠ [0, 1, 2, 3] :=
  ⟨[2, 0, 3, 1], by decide, by decide⟩

theorem witness_DatapathRowsWriteOnlyTheDatapath : ∃ i : Instr, i.isDatapath = true := ⟨.permute, rfl⟩

theorem witness_StepKeepsTheInvariant : ∃ s t : State, s.Inv ∧ step s = .next t := ⟨flying 0x43, _, flying_inv, rfl⟩

/-- The hypothesis of the writers' statements: a step that changes the counter, the configuration, ERR_CODE and DOUT. -/
theorem witness_CounterWrittenOnlyByTheFour : ∃ s t : State, step s = .next t ∧ t.c ≠ s.c ∧ t.dout ≠ s.dout :=
  ⟨flying 0x43, _, rfl, by decide +kernel, by decide +kernel⟩
@[inherit_doc witness_CounterWrittenOnlyByTheFour] theorem witness_ConfigurationWrittenOnlyByInitAndReset :
    ∃ s t : State, step s = .next t ∧ t.configured ≠ s.configured :=
  ⟨({ State.reset with keyMask := 0xFF, nonceMask := 0x3 } : State).issue 1, _, rfl, by decide +kernel⟩
@[inherit_doc witness_CounterWrittenOnlyByTheFour] theorem witness_ErrorCodeWrittenOnlyByTheFour :
    ∃ s t : State, step s = .next t ∧ t.errCode ≠ s.errCode := ⟨flying 5, _, rfl, by decide +kernel⟩

/-- WRAPPED is set by one step, and cleared by another. -/
theorem witness_WrappedIsSticky :
    (∃ s t : State, step s = .next t ∧ s.wrapped = false ∧ t.wrapped = true) ∧
    ∃ s t : State, step s = .next t ∧ s.wrapped = true ∧ t.wrapped = false :=
  ⟨⟨(cfg 0xffffffffffffffff).issue 0x43, _, rfl, rfl, by decide +kernel⟩,
    ⟨{ cfg 0 with wrapped := true, input := [wr .status 4] }, _, rfl, rfl, by decide +kernel⟩⟩

theorem witness_StagingAndDataRegistersHaveTheirWriters :
    ∃ s t : State, step s = .next t ∧ ¬ s.resetTurn ∧ (∀ k d, ¬ s.accessTurn (.wrKey k d)) ∧
      (∀ n d, ¬ s.accessTurn (.wrNonce n d)) ∧ (∀ d, ¬ s.accessTurn (.wrCtrstgLo d) ∧ ¬ s.accessTurn (.wrCtrstgHi d)) ∧
      (∀ d, ¬ s.accessTurn (.wrDin d)) ∧ t.dout ≠ s.dout := by
  have none (i : Instr) : ¬ (flying 0x43).accessTurn i := fun ⟨_, _, h, _⟩ => nomatch h
  exact ⟨flying 0x43, _, rfl, fun ⟨_, _, h⟩ => (nomatch h), fun _ _ => none _, fun _ _ => none _, fun _ => ⟨none _, none _⟩,
    fun _ => none _, by decide +kernel⟩

theorem witness_AccessesLeaveTheEngine : ∃ s : State, s.busy = true := ⟨flying 0x43, rfl⟩

theorem witness_StagingWritesCommuteWithCompletion : ∃ (i : Instr) (s : State), i.isStagingWrite = true ∧ s.busy = true :=
  ⟨.wrDin 5, flying 0x44, rfl, rfl⟩

theorem witness_ReadsAreFreeAndWritesIdempotent :
    (∃ i : Instr, i.isRead = true) ∧ ∃ i : Instr, i.isPlainWrite = true := ⟨⟨.rdDout, rfl⟩, .wrStatus 8, rfl⟩

theorem witness_CommandInFlightEnds : ∃ s : State, s.busy = true ∧ s.input ≠ [] :=
  ⟨{ flying 0x43 with input := [.idle, .idle] }, rfl, by decide⟩

/-- With a position, and with none. -/
theorem witness_StepFollowsThePositionLaw :
    (∃ (s t : State) (p : Position), AtPositionOpt (some p) s ∧ step s = .next t) ∧
    ∃ s t : State, AtPositionOpt none s ∧ step s = .next t :=
  ⟨⟨laterFlying 0x43, _, later, laterFlying_at _, rfl⟩, State.reset.issue 1, _, rfl, rfl⟩

/-- The longest length, at a position inside a block. -/
theorem witness_StreamOutputsTheBytesAtItsPosition :
    ∃ (s : State) (f : Inflight) (p : Position) (len : BitVec 3), AtPosition p s ∧ s.inflight = some f ∧ len.toNat ≤ 4 ∧ 3 < len.toNat :=
  ⟨laterFlying 0x44, _, later, 4, laterFlying_at _, rfl, by decide, by decide⟩

theorem witness_ChunkingDoesNotMatter :
    ∃ (s : State) (p : Position) (chunks : List (List Byte)), AtPosition p s ∧ s.inflight = none ∧
      (∀ chunk ∈ chunks, chunk.length ≤ 4) ∧ chunks.flatten.length = 5 :=
  ⟨cfg 0, start, [[1, 2, 3, 4], [], [5]], cfg_at, rfl, by decide, rfl⟩

/-- The ciphertext of "Hel" (P2), cut in two. -/
theorem witness_DecryptionInvertsEncryption :
    ∃ (a b : State) (p : Position) (chunks chunks' : List (List Byte)), AtPosition p a ∧ AtPosition p b ∧ a.inflight = none ∧
      b.inflight = none ∧ (∀ chunk ∈ chunks, chunk.length ≤ 4) ∧ (∀ chunk ∈ chunks', chunk.length ≤ 4) ∧
      chunks'.flatten = (cryptProgram chunks a).1 ∧ chunks ≠ chunks' :=
  ⟨cfg 0, cfg 0, start, [[0x48, 0x65, 0x6c]], [[0x3e], [0xdd, 0x8c]], cfg_at, cfg_at, rfl, rfl, by decide, by decide,
    by decide +kernel, by decide⟩

theorem witness_SeekGivesRandomAccess :
    ∃ (s u v : State) (f : Inflight), s.configured = true ∧ s.inflight = none ∧ u.inflight = some f ∧ f.kmask = 0xFF ∧
      f.nmask = 0x3 ∧ f.key = s.k ∧ f.nonce = s.n ∧ f.ctr = 7 ∧ exec .init u = .next v :=
  ⟨cfg 0, (cfg 7).issue 1, _, _, rfl, rfl, rfl, rfl, rfl, rfl, rfl, rfl, rfl⟩

/-- Two COREs that differ in their key alone. -/
theorem witness_AccessesRevealNoSecret : ∃ s s' : State, s.visible = s'.visible ∧ s.k ≠ s'.k :=
  ⟨cfg 0, { cfg 0 with k := KeyWords.zero.set 0 1 }, by decide +kernel, by decide +kernel⟩

/-- A refill at the boundary (3 bytes held, 4 wanted), no refill one byte above it, and two COREs that differ in their counter. -/
theorem witness_LatencyDependsOnlyOnRefilling :
    (∃ (s : State) (f : Inflight), s.inflight = some f ∧ s.configured = true ∧
      ∃ n : BitVec 3, (decodeCommand f.cmd = .keystream n ∨ decodeCommand f.cmd = .crypt n) ∧ s.pend.length < n.toNat ∧
        s.pend.length = 3) ∧
    (∃ (s : State) (f : Inflight), s.inflight = some f ∧ ¬ (s.configured = true ∧
      ∃ n : BitVec 3, (decodeCommand f.cmd = .keystream n ∨ decodeCommand f.cmd = .crypt n) ∧ s.pend.length < n.toNat) ∧
        s.pend.length = 4) ∧
    ∃ s s' : State, s.inflight.map Inflight.cmd = s'.inflight.map Inflight.cmd ∧ s.configured = s'.configured ∧
      s.pend.length = s'.pend.length ∧ s.c ≠ s'.c :=
  ⟨⟨({ cfg 0 with pend := [1, 2, 3] } : State).issue 0x43, _, rfl, rfl, 4, .inl (by decide +kernel), by decide, rfl⟩,
    ⟨({ cfg 0 with pend := [1, 2, 3, 4] } : State).issue 0x43, _, rfl, by decide +kernel, rfl⟩,
    flying 0x43, (cfg 5).issue 0x43, rfl, rfl, rfl, by decide⟩

/-- CORE 0 of two takes a step. -/
theorem witness_CoresShareNothing :
    ∃ (i j : Nat) (p q : Platform) (s t : State), p[i]? = some s ∧ Machine.step s = .next t ∧
      Platform.step i p = .next q ∧ j ≠ i ∧ j < p.length :=
  ⟨0, 1, [flying 0x43, cfg 0], _, flying 0x43, _, rfl, rfl, rfl, by decide, by decide⟩

/-- R616: the CORE stepped issues what its host presents, the other stays. -/
theorem test_platform_step :
    Result.state (cfg 0) (step { cfg 0 with input := [wr .ctrl 0x43] }) = flying 0x43 ∧
    (match Platform.step 1 [cfg 0, { cfg 0 with input := [wr .ctrl 0x43] }] with
      | .next q => q == [cfg 0, flying 0x43]
      | .fault _ => false
      | .refused _ => false) = true := by decide +kernel

end Sys2Proof.Tests
end

/-! PROOFS of the family `10_state.md`: everything one step can do, said once, and the statements about who writes which
register. -/

namespace Sys2Proof.Machine

/-! ### Everything one step can do -/

/-- The state an event finds: what is still to come is one event shorter (log 1). -/
def State.popped (s : State) : State := { s with input := s.input.tail }

namespace State

section popped
variable (s : State)

@[simp] theorem popped_keyStage : s.popped.keyStage = s.keyStage := rfl
@[simp] theorem popped_keyMask : s.popped.keyMask = s.keyMask := rfl
@[simp] theorem popped_nonceStage : s.popped.nonceStage = s.nonceStage := rfl
@[simp] theorem popped_nonceMask : s.popped.nonceMask = s.nonceMask := rfl
@[simp] theorem popped_ctrStage : s.popped.ctrStage = s.ctrStage := rfl
@[simp] theorem popped_din : s.popped.din = s.din := rfl
@[simp] theorem popped_dout : s.popped.dout = s.dout := rfl
@[simp] theorem popped_k : s.popped.k = s.k := rfl
@[simp] theorem popped_n : s.popped.n = s.n := rfl
@[simp] theorem popped_c : s.popped.c = s.c := rfl
@[simp] theorem popped_pend : s.popped.pend = s.pend := rfl
@[simp] theorem popped_configured : s.popped.configured = s.configured := rfl
@[simp] theorem popped_wrapped : s.popped.wrapped = s.wrapped := rfl
@[simp] theorem popped_errCode : s.popped.errCode = s.errCode := rfl
@[simp] theorem popped_inflight : s.popped.inflight = s.inflight := rfl
@[simp] theorem popped_dp : s.popped.dp = s.dp := rfl
@[simp] theorem popped_rdata : s.popped.rdata = s.rdata := rfl
@[simp] theorem popped_tick : s.popped.tick = s.tick := rfl
@[simp] theorem popped_input : s.popped.input = s.input.tail := rfl

end popped

/-- With nothing still to come, the engine's turn finds the state itself (R722). -/
theorem popped_of_nil {s : State} (h : s.input = []) : s.popped = s := by
  unfold popped; rw [h, List.tail_nil, ← h]

/-- An event finds the state with the events after it still to come. -/
theorem popped_of_cons {s : State} {e : Event} {rest : List Event} (h : s.input = e :: rest) :
    s.popped = { s with input := rest } := by
  unfold popped; rw [h, List.tail_cons]

end State

/-- A step takes one event: an access, the engine's turn, a `rst` edge, or nothing (R211, R550, R700). -/
theorem step_events {s t : State} (h : step s = .next t) :
    (∃ a : Access, s.accessTurn a.instr ∧ exec a.instr s.popped = .next t) ∨
    (s.engineTurn ∧ execEngineStep s.popped = .next t) ∨
    (∃ p, s.resetTurn ∧ t = s.popped.resetEdge p) ∨
    t = s.popped := by
  cases hi : s.input with
  | nil => exact .inr (.inl ⟨.inl hi, by rw [State.popped_of_nil hi, ← step_nil hi, h]⟩)
  | cons e rest =>
    rw [step_cons hi, ← State.popped_of_cons hi] at h
    cases e with
    | access a => exact .inl ⟨a, ⟨a, rest, hi, rfl⟩, h⟩
    | engine => exact .inr (.inl ⟨.inr ⟨rest, hi⟩, h⟩)
    | reset p => exact .inr (.inr (.inl ⟨p, ⟨p, rest, hi⟩, (Host.Outcome.next.inj h).symm⟩))
    | idle => exact .inr (.inr (.inr (Host.Outcome.next.inj h).symm))

/-- Everything a step from `s` can do, and to which state it leads: one constructor per effect (R550, R575, R700). -/
inductive StepCase (s : State) : State → Prop
  /-- No event, an ignored write, or the engine's turn with no command in flight (R551, R559, R562, R572, R618). -/
  | quiet : StepCase s s.popped
  /-- A read (R208). -/
  | read (v : Word) : StepCase s (s.popped.read v)
  /-- A `rst` edge (R700). -/
  | reset (p : Option Access) : s.resetTurn → StepCase s (s.popped.resetEdge p)
  /-- A write of CTRL while busy (R603). -/
  | overrun (w : Word) : s.accessTurn (.wrCtrl w) → s.busy = true → StepCase s (s.popped.raise .busyOverrun)
  /-- A write of CTRL while idle (R556). -/
  | issue (w : Word) : s.accessTurn (.wrCtrl w) → s.inflight = none → StepCase s (s.popped.issue w)
  /-- A write of STATUS (R553). -/
  | writeStatus (d : Word) : s.accessTurn (.wrStatus d) →
      StepCase s ((s.popped.clearWrapped (d.getLsbD 2)).clearErr (d.getLsbD 3))
  /-- A write of DIN (R555). -/
  | writeDin (d : Word) : s.accessTurn (.wrDin d) → StepCase s { s.popped with din := d }
  /-- A write of one half of CTR_STAGE (R565, R566). -/
  | writeCtrStage (d : Word) (v : BitVec 64) : s.accessTurn (.wrCtrstgLo d) ∨ s.accessTurn (.wrCtrstgHi d) →
      StepCase s { s.popped with ctrStage := v }
  /-- A write of a key word (R567). -/
  | writeKey (k : Fin 8) (d : Word) : s.accessTurn (.wrKey k d) →
      StepCase s { s.popped with keyStage := s.keyStage.set k d, keyMask := setBit s.keyMask k }
  /-- A write of a nonce word (R569). -/
  | writeNonce (n : Fin 2) (d : Word) : s.accessTurn (.wrNonce n d) →
      StepCase s { s.popped with nonceStage := s.nonceStage.set n d, nonceMask := setBit s.nonceMask n }
  /-- The completion of a failing command (R602). -/
  | fails (code : ErrCode) : s.engineTurn → s.busy = true → code ≠ .none → code ≠ .busyOverrun →
      StepCase s (s.popped.raise code).complete
  /-- The completion of a NOP (R501). -/
  | nopCompletes : s.engineTurn → s.busy = true → StepCase s s.popped.complete
  /-- The completion of a successful INIT (R502). -/
  | initCompletes (f : Inflight) : s.initCompletes f → StepCase s
      { s.popped with
        k := f.key, n := f.nonce, c := f.ctr, pend := [], wrapped := false, configured := true, inflight := none }
  /-- The completion of a successful SET_COUNTER (R506). -/
  | seekCompletes (f : Inflight) : s.seekCompletes f →
      StepCase s { s.popped with c := f.ctr, pend := [], inflight := none }
  /-- The completion of a KEYSTREAM or CRYPT that passes its checks (R452, R453, R455). -/
  | streamCompletes (f : Inflight) (m : Nat) (d : Word) : s.streamCompletes f m →
      StepCase s (s.popped.stream m d).complete

/-- An access is one of the cases of a step (R551). -/
theorem stepCase_of_access {s t : State} {a : Access} (ha : s.accessTurn a.instr)
    (h : exec a.instr s.popped = .next t) : StepCase s t := by
  unfold Access.instr at ha h
  rcases exec_decodeBus_cases (selector a.we a.addr) a.wdata s.popped with
    ⟨v, e⟩ | e | ⟨hd, hb, e⟩ | ⟨hd, hf, e⟩ | ⟨hd, e⟩ | ⟨hd, e⟩ | ⟨hd, v, e⟩ | ⟨k, hd, e⟩ | ⟨n, hd, e⟩ <;>
    obtain rfl := Host.Outcome.next.inj (e.symm.trans h)
  · exact .read v
  · exact .quiet
  · exact .overrun _ (hd ▸ ha) hb
  · exact .issue _ (hd ▸ ha) hf
  · exact .writeStatus _ (hd ▸ ha)
  · exact .writeDin _ (hd ▸ ha)
  · exact .writeCtrStage _ v (hd.imp (· ▸ ha) (· ▸ ha))
  · exact .writeKey k _ (hd ▸ ha)
  · exact .writeNonce n _ (hd ▸ ha)

/-- The engine's turn is one of the cases of a step (R575). -/
theorem stepCase_of_engine {s t : State} (ht : s.engineTurn) (h : execEngineStep s.popped = .next t) :
    StepCase s t := by
  rcases execEngineStep_cases h with ⟨_, rfl⟩ | ⟨f, hf, rfl⟩
  · exact .quiet
  · have hb : s.busy = true := s.busy_iff.mpr ⟨f, hf⟩
    rcases commandBody_cases f s.popped with
      ⟨code, h0, h1, e⟩ | ⟨_, e⟩ | ⟨hd, hk, hn, e⟩ | ⟨hd, hc, e⟩ | ⟨n, d, hd, _, hc, e⟩ <;> rw [e]
    · exact .fails code ht hb h0 h1
    · exact .nopCompletes ht hb
    · exact .initCompletes f ⟨ht, hf, hd, hk, hn⟩
    · exact .seekCompletes f ⟨ht, hf, hd, hc⟩
    · exact .streamCompletes f n.toNat d ⟨ht, hf, hc, n, rfl, hd.imp And.left And.left⟩

/-- The inversion of a step: its result is reached by one of the cases. -/
theorem step_cases {s t : State} (h : step s = .next t) : StepCase s t := by
  rcases step_events h with ⟨a, ha, he⟩ | ⟨ht, he⟩ | ⟨p, hr, rfl⟩ | rfl
  · exact stepCase_of_access ha he
  · exact stepCase_of_engine ht he
  · exact .reset p hr
  · exact .quiet

/-! ### Who writes what -/

/-- Settles O43: of the cases of a step only the four named write `C`, and a stream command only when it refills. -/
theorem counterWrittenOnlyByTheFour : Obligations.CounterWrittenOnlyByTheFour := by
  intro s t h
  cases step_cases h with
  | reset p hr => exact .inr (.inl ⟨hr, rfl⟩)
  | initCompletes f hf => exact .inr (.inr (.inl ⟨f, hf, rfl⟩))
  | seekCompletes f hf => exact .inr (.inr (.inr (.inl ⟨f, hf, rfl⟩)))
  | streamCompletes f m d hf =>
    by_cases hm : s.pend.length < m
    · exact .inr (.inr (.inr (.inr ⟨f, m, hf, hm, by simp [hm]⟩)))
    · exact .inl (by simp [hm])
  | _ => exact .inl rfl

/-- Settles O45: the cases that write `WRAPPED` are a refill, which can only set it, and a `rst` edge, INIT and a write of
STATUS, which can only clear it. -/
theorem wrappedIsSticky : Obligations.WrappedIsSticky := by
  intro s t h
  cases step_cases h with
  | reset p hr => exact ⟨fun _ ht => (nomatch ht), fun _ _ => .inl hr⟩
  | initCompletes f hf => exact ⟨fun _ ht => (nomatch ht), fun _ _ => .inr (.inl ⟨f, hf⟩)⟩
  | writeStatus d hd =>
    constructor
    · intro h0 ht; simp [h0] at ht
    · intro h1 ht; exact .inr (.inr ⟨d, by simpa [h1] using ht, hd⟩)
  | streamCompletes f m d hf =>
    constructor
    · intro h0 ht
      obtain ⟨hm, hc⟩ : s.pend.length < m ∧ s.c = BitVec.allOnes 64 := by simpa [h0] using ht
      exact ⟨f, m, hf, hm, hc, by simp [hm, hc]⟩
    · intro h1 ht; simp [h1] at ht
  | _ => exact ⟨fun h0 ht => absurd (ht.symm.trans h0) (by decide), fun h1 ht => absurd (ht.symm.trans h1) (by decide)⟩

/-- Settles O46: the cases that write `ERR_CODE` are the four of R115; a stream command's procedure leaves it (R450). -/
theorem errorCodeWrittenOnlyByTheFour : Obligations.ErrorCodeWrittenOnlyByTheFour := by
  intro s t h
  cases step_cases h with
  | reset p hr => exact .inr (.inl ⟨hr, rfl⟩)
  | overrun w hw hb => exact .inr (.inr (.inl ⟨w, hw, hb, rfl⟩))
  | writeStatus d hd =>
    cases h3 : d.getLsbD 3 with
    | true => exact .inr (.inr (.inr (.inl ⟨d, h3, hd, rfl⟩)))
    | false => exact .inl rfl
  | fails code ht hb h0 h1 => exact .inr (.inr (.inr (.inr ⟨ht, hb, rfl, h0, h1, rfl⟩)))
  | streamCompletes f m d hf => exact .inl (by simp)
  | _ => exact .inl rfl

/-- Settles O47: outside a `rst` edge each of these registers is written by one case of a step alone. -/
theorem stagingAndDataRegistersHaveTheirWriters : Obligations.StagingAndDataRegistersHaveTheirWriters := by
  intro s t h hr
  cases step_cases h with
  | reset p hp => exact absurd hp hr
  | writeKey k d hk =>
    exact ⟨fun no => absurd hk (no k d), fun _ => ⟨rfl, rfl⟩, fun _ => rfl, fun _ => rfl, fun ne => absurd rfl ne⟩
  | writeNonce n d hn =>
    exact ⟨fun _ => ⟨rfl, rfl⟩, fun no => absurd hn (no n d), fun _ => rfl, fun _ => rfl, fun ne => absurd rfl ne⟩
  | writeCtrStage d v hd =>
    exact ⟨fun _ => ⟨rfl, rfl⟩, fun _ => ⟨rfl, rfl⟩, fun no => absurd hd (not_or.mpr (no d)), fun _ => rfl,
      fun ne => absurd rfl ne⟩
  | writeDin d hd =>
    exact ⟨fun _ => ⟨rfl, rfl⟩, fun _ => ⟨rfl, rfl⟩, fun _ => rfl, fun no => absurd hd (no d), fun ne => absurd rfl ne⟩
  | streamCompletes f m d hf =>
    exact ⟨fun _ => by simp, fun _ => by simp, fun _ => by simp, fun _ => by simp, fun _ => ⟨f, m, hf⟩⟩
  | _ => exact ⟨fun _ => ⟨rfl, rfl⟩, fun _ => ⟨rfl, rfl⟩, fun _ => rfl, fun _ => rfl, fun ne => absurd rfl ne⟩

/-! ### The dead datapath -/

/-- ENGINE_STEP is the completion of what the word in flight decodes to (R308, R575). -/
theorem execEngineStep_eq_completing (s : State) : execEngineStep s = completing s commandBody := by
  cases hf : s.inflight with
  | none => rw [execEngineStep_none hf, completing_none hf]
  | some f => rw [execEngineStep_some hf, completing_some hf]

/-- Two states that differ at most in the datapath and the count of free values (R118, R119). -/
def State.SameButDatapath (s s' : State) : Prop := ∃ dp tick, s' = { s with dp := dp, tick := tick }

namespace State.SameButDatapath

variable {s s' : State}

theorem configured (h : s.SameButDatapath s') : s'.configured = s.configured := by obtain ⟨_, _, rfl⟩ := h; rfl
theorem inflight (h : s.SameButDatapath s') : s'.inflight = s.inflight := by obtain ⟨_, _, rfl⟩ := h; rfl
theorem input (h : s.SameButDatapath s') : s'.input = s.input := by obtain ⟨_, _, rfl⟩ := h; rfl

/-- REFILL reads nothing of the datapath it finds: the bytes it appends are BLOCK of `K`, `N` and `C` (R400, R457). -/
theorem refill (n : Nat) (h : s.SameButDatapath s') : (s.refill n).SameButDatapath (s'.refill n) := by
  obtain ⟨dp, tick, rfl⟩ := h
  by_cases hn : s.pend.length < n
  · rw [State.refill_of_lt hn, State.refill_of_lt (s := { s with dp := dp, tick := tick }) hn]
    simp only [State.runBlock, State.appendBlock, State.increment, Datapath.dead_bytes, Datapath.block_bytes]
    exact ⟨_, _, rfl⟩
  · rw [State.refill_of_le (Nat.le_of_not_lt hn),
      State.refill_of_le (s := { s with dp := dp, tick := tick }) (Nat.le_of_not_lt hn)]
    exact ⟨_, _, rfl⟩

theorem stream (n : Nat) (d : Word) (h : s.SameButDatapath s') : (s.stream n d).SameButDatapath (s'.stream n d) := by
  obtain ⟨dp, tick, e⟩ := h.refill n
  unfold State.stream
  rw [e]
  exact ⟨_, _, rfl⟩

theorem raise (code : ErrCode) (h : s.SameButDatapath s') : (s.raise code).SameButDatapath (s'.raise code) := by
  obtain ⟨dp, tick, rfl⟩ := h
  exact ⟨_, _, rfl⟩

theorem streamCommand (len : BitVec 3) (d : Word) (h : s.SameButDatapath s') :
    (s.streamCommand len d).SameButDatapath (s'.streamCommand len d) := by
  unfold State.streamCommand
  rw [h.configured]
  split
  · exact h.raise _
  · split
    · exact h.raise _
    · exact h.stream _ d

theorem initBody (f : Inflight) (h : s.SameButDatapath s') : (initBody f s).SameButDatapath (initBody f s') := by
  unfold Machine.initBody
  split
  · exact h.raise _
  · split
    · exact h.raise _
    · obtain ⟨dp, tick, rfl⟩ := h
      exact ⟨_, _, rfl⟩

theorem setCounterBody (f : Inflight) (h : s.SameButDatapath s') :
    (setCounterBody f s).SameButDatapath (setCounterBody f s') := by
  unfold Machine.setCounterBody
  rw [h.configured]
  split
  · exact h.raise _
  · obtain ⟨dp, tick, rfl⟩ := h
    exact ⟨_, _, rfl⟩

theorem commandBody (f : Inflight) (h : s.SameButDatapath s') :
    (commandBody f s).SameButDatapath (commandBody f s') := by
  unfold Machine.commandBody
  cases decodeCommand f.cmd with
  | illegal code => exact h.raise code
  | nop => exact h
  | init => exact h.initBody f
  | setCounter => exact h.setCounterBody f
  | keystream n => exact h.streamCommand n 0
  | crypt n => exact h.streamCommand n f.din

end State.SameButDatapath

/-- Two results are next states that differ at most in the datapath and the count of free values. -/
def Result.AgreeButDatapath (r r' : Result) : Prop := ∃ t t', r = .next t ∧ r' = .next t' ∧ t.SameButDatapath t'

namespace State.SameButDatapath

variable {s s' : State}

theorem completing {body : Inflight → State → State} (h : s.SameButDatapath s')
    (hb : ∀ f, (body f s).SameButDatapath (body f s')) :
    Result.AgreeButDatapath (completing s body) (completing s' body) := by
  cases hf : s.inflight with
  | none => exact ⟨s, s', completing_none hf body, completing_none (h.inflight.trans hf) body, h⟩
  | some f =>
    refine ⟨_, _, completing_some hf body, completing_some (h.inflight.trans hf) body, ?_⟩
    obtain ⟨dp, tick, e⟩ := hb f
    exact ⟨dp, tick, by rw [e]; rfl⟩

/-- No operation, the datapath's own among them, carries what the datapath holds into another register. -/
theorem exec (i : Instr) (h : s.SameButDatapath s') : Result.AgreeButDatapath (exec i s) (exec i s') := by
  cases i with
  | wrCtrl w =>
    have hb : s'.busy = s.busy := congrArg Option.isSome h.inflight
    obtain ⟨dp, tick, rfl⟩ := h
    simp only [Machine.exec, execWrCtrl, hb]
    split <;> exact ⟨_, _, rfl, rfl, _, _, rfl⟩
  | nop => exact h.completing (body := fun _ s => s) fun _ => h
  | init => exact h.completing h.initBody
  | setCounter => exact h.completing h.setCounterBody
  | keystream n => exact h.completing fun _ => h.streamCommand n 0
  | crypt n => exact h.completing fun f => h.streamCommand n f.din
  | illegal w => exact h.completing fun _ => h.raise _
  | engineStep =>
    simp only [Machine.exec, execEngineStep_eq_completing]
    exact h.completing h.commandBody
  | _ =>
    obtain ⟨dp, tick, rfl⟩ := h
    exact ⟨_, _, rfl, rfl, _, _, rfl⟩

theorem execEvent (e : Event) (h : s.SameButDatapath s') :
    Result.AgreeButDatapath (execEvent e s) (execEvent e s') := by
  cases e with
  | access a => exact h.exec a.instr
  | engine => exact h.exec .engineStep
  | reset p =>
    obtain ⟨dp, tick, rfl⟩ := h
    exact ⟨_, _, rfl, rfl, _, _, rfl⟩
  | idle => exact ⟨s, s', rfl, rfl, h⟩

theorem step (h : s.SameButDatapath s') : Result.AgreeButDatapath (step s) (step s') := by
  cases hi : s.input with
  | nil =>
    rw [step_nil hi, step_nil (h.input.trans hi)]
    exact h.exec .engineStep
  | cons e rest =>
    rw [step_cons hi, step_cons (h.input.trans hi)]
    refine State.SameButDatapath.execEvent e ?_
    obtain ⟨dp, tick, rfl⟩ := h
    exact ⟨_, _, rfl⟩

end State.SameButDatapath

/-- Settles O40: a step keeps two states equal but for the datapath, because BLOCK writes `S`, `X` and `RND` before it reads
them. -/
theorem deadDatapathIsNeverObserved : Obligations.DeadDatapathIsNeverObserved := by
  intro s dp tick
  have same : s.SameButDatapath { s with dp := dp, tick := tick } := ⟨dp, tick, rfl⟩
  obtain ⟨t, t', ht, ht', _, _, rfl⟩ := same.step
  exact ⟨t, _, ht, ht', rfl⟩

end Sys2Proof.Machine

/-! PROOFS of the family `20_memory.md`: byte order inside a word (R205), the ignored address bits (R206), and accesses done
twice (R208). -/

namespace Sys2Proof.Machine

/-! ### Address decoding -/

/-- The selector reads an address only through its word slot `addr[7:2]` (R206, R300). -/
theorem selector_eq_of_slot {a b : BitVec 8} (h : a.toNat / 4 = b.toNat / 4) (we : Bool) :
    selector we a = selector we b := by
  have slot : a.extractLsb' 2 6 = b.extractLsb' 2 6 := by
    apply BitVec.eq_of_toNat_eq
    simpa [BitVec.extractLsb'_toNat, Nat.shiftRight_eq_div_pow] using congrArg (· % 64) h
  rw [selector, selector, slot]

/-- Settles O23: the row an access selects is decoded from its selector, so from its word slot alone. -/
theorem addressLowBitsAreIgnored : Obligations.AddressLowBitsAreIgnored := by
  intro we a b d rest s h
  have row : Access.instr ⟨we, a, d⟩ = Access.instr ⟨we, b, d⟩ := by
    unfold Access.instr; rw [selector_eq_of_slot h]
  rw [step_cons rfl, step_cons rfl]
  exact congrArg (exec · { s with input := rest }) row

/-! ### Accesses done twice -/

/-- A read answers with a value that does not depend on what the port carried before (R208, R551). -/
theorem exec_of_isRead {i : Instr} (h : i.isRead = true) :
    ∃ value : State → Word, (∀ s, exec i s = .next (s.read (value s))) ∧ ∀ s w, value (s.read w) = value s := by
  cases i with
  | rdCtrl | rdStatus | rdDin | rdDout | rdCtrLo | rdCtrHi | rdCtrstgLo | rdCtrstgHi | rdKey _ | rdNonce _
  | rdUnmapped _ => exact ⟨_, fun _ => rfl, fun _ _ => rfl⟩
  | _ => exact absurd h Bool.false_ne_true

/-- Setting a bit of a mask twice is setting it once (R102, R104). -/
@[simp] theorem setBit_setBit {w : Nat} (mask : BitVec w) (i : Nat) : setBit (setBit mask i) i = setBit mask i := by
  simp only [setBit, BitVec.or_assoc, BitVec.or_self]

/-- Clearing the sticky fields twice is clearing them once (R553). -/
theorem clear_clear (b e : Bool) (s : State) :
    (((s.clearWrapped b).clearErr e).clearWrapped b).clearErr e = (s.clearWrapped b).clearErr e := by
  cases b <;> cases e <;> simp [State.clearWrapped, State.clearErr]

/-- A write other than of CTRL is a function of the state that is idempotent (R208). -/
theorem exec_of_isPlainWrite {i : Instr} (h : i.isPlainWrite = true) :
    ∃ effect : State → State, (∀ s, exec i s = .next (effect s)) ∧ ∀ s, effect (effect s) = effect s := by
  cases i with
  | wrStatus d => exact ⟨_, fun _ => rfl, clear_clear _ _⟩
  | wrDin _ | wrDout _ | wrCtr _ _ | wrUnmapped _ _ => exact ⟨_, fun _ => rfl, fun _ => rfl⟩
  | wrCtrstgLo d => exact ⟨_, fun _ => rfl, fun _ => by simp only [high_halves]⟩
  | wrCtrstgHi d => exact ⟨_, fun _ => rfl, fun _ => by simp only [low_halves]⟩
  | wrKey k d => exact ⟨_, fun _ => rfl, fun _ => by simp only [Vector.set_set, setBit_setBit]⟩
  | wrNonce n d => exact ⟨_, fun _ => rfl, fun _ => by simp only [Vector.set_set, setBit_setBit]⟩
  | _ => exact absurd h Bool.false_ne_true

/-- Settles O50: a read writes only the port's value, which no read looks at, and the effect of a plain write is idempotent. -/
theorem readsAreFreeAndWritesIdempotent : Obligations.ReadsAreFreeAndWritesIdempotent := by
  intro i s
  constructor
  · intro h
    obtain ⟨value, read, free⟩ := exec_of_isRead h
    exact ⟨_, read s, rfl, by rw [read, free]; rfl⟩
  · intro h
    obtain ⟨effect, write, idem⟩ := exec_of_isPlainWrite h
    exact ⟨_, write s, by rw [write, idem]⟩

/-! ### The bytes of a block -/

/-- Byte `4w + i` of words written out little-endian is lane `i` of word `w` (R11, R204). -/
theorem flatMap_bytesLe_getElem? (words : List Word) (w : Nat) (i : Fin 4) :
    (words.flatMap bytesLe)[4 * w + i]? = words[w]?.map (lane · i) := by
  induction words generalizing w with
  | nil => rfl
  | cons word words ih =>
    rw [List.flatMap_cons]
    cases w with
    | zero =>
      rw [List.getElem?_append_left (by simp)]
      fin_cases i <;> rfl
    | succ w =>
      rw [List.getElem?_append_right (by simp; omega), bytesLe_length, show 4 * (w + 1) + i - 4 = 4 * w + i by omega, ih,
        List.getElem?_cons_succ]

/-- Byte `4w + i` of a serialized block is lane `i` of its word `w` (R413). -/
theorem serialize_getElem? (z : Block) (w : Nat) (i : Fin 4) : (serialize z)[4 * w + i]? = z[w]?.map (lane · i) := by
  rw [serialize, flatMap_bytesLe_getElem?, ← Vector.getElem?_toList]

/-! ### The bytes of a keystream -/

section keystream
variable (key : KeyWords) (nonce : NonceWords) (c0 : BitVec 64)

@[simp] theorem ksBytes_length (i m : Nat) : (ksBytes key nonce c0 i m).length = m := by
  simp [ksBytes]

/-- Byte `j` of a stretch of keystream (R451). -/
theorem ksBytes_getD {j m : Nat} (i : Nat) (h : j < m) :
    (ksBytes key nonce c0 i m).getD j 0 = ksByte key nonce c0 (i + j) := by
  simp [ksBytes, h]

/-- Two adjoining stretches of keystream are one. -/
theorem ksBytes_append (i m m' : Nat) :
    ksBytes key nonce c0 i m ++ ksBytes key nonce c0 (i + m) m' = ksBytes key nonce c0 i (m + m') := by
  simp [ksBytes, List.range_add, Function.comp_def, Nat.add_assoc]

/-- A stretch of keystream cut short. -/
theorem ksBytes_take {n m : Nat} (i : Nat) (h : n ≤ m) :
    (ksBytes key nonce c0 i m).take n = ksBytes key nonce c0 i n := by
  rw [ksBytes, ← List.map_take, List.take_range, Nat.min_eq_left h, ksBytes]

/-- Block `b` of a keystream is its bytes `64b` to `64b + 63` (R451). -/
theorem block_eq_ksBytes (b : Nat) :
    block key nonce (c0 + BitVec.ofNat 64 b) = ksBytes key nonce c0 (64 * b) 64 := by
  apply List.ext_getElem (by simp)
  intro j hj _
  rw [block_length] at hj
  have hb : (64 * b + j) / 64 = b := by omega
  simp [ksBytes, ksByte, hb, Nat.mod_eq_of_lt hj, hj]

end keystream

/-- REFILL at a keystream position leaves in `PEND` the bytes from there to the end of the last block that `n` more bytes need
(R457, R464). -/
theorem AtPosition.refill_pend {p : Position} {s : State} (h : AtPosition p s) {n : Nat} (hn : n ≤ 64) :
    (s.refill n).pend =
      ksBytes p.key p.nonce p.start p.total (64 * blocksFor (p.total + n) - p.total) := by
  obtain ⟨_, hk, hnonce, hc, hp⟩ := h
  have hlen : s.pend.length = 64 * blocksFor p.total - p.total := by rw [hp, ksBytes_length]
  rw [State.refill_pend]
  split
  next hlt =>
    have held : p.total + (64 * blocksFor p.total - p.total) = 64 * blocksFor p.total := by unfold blocksFor; omega
    have grown : 64 * blocksFor p.total - p.total + 64 = 64 * blocksFor (p.total + n) - p.total := by
      unfold blocksFor at hlen ⊢; omega
    rw [hk, hnonce, hc, hp, block_eq_ksBytes, ← grown, ← ksBytes_append, held]
  next hge =>
    have same : blocksFor (p.total + n) = blocksFor p.total := by unfold blocksFor at hlen ⊢; omega
    rw [hp, same]

/-- TAKE after REFILL consumes the `n` bytes at the keystream position (R458, R464). -/
theorem AtPosition.refill_take {p : Position} {s : State} (h : AtPosition p s) {n : Nat} (hn : n ≤ 64) :
    (s.refill n).pend.take n = ksBytes p.key p.nonce p.start p.total n := by
  rw [h.refill_pend hn, ksBytes_take _ _ _ _ (by unfold blocksFor; omega)]

/-- KEYSTREAM of a legal length on a configured engine runs the procedure with no data (R452). -/
theorem exec_keystream {s : State} {f : Inflight} {len : BitVec 3} (hf : s.inflight = some f)
    (hc : s.configured = true) (hlen : len.toNat ≤ 4) :
    exec (.keystream len) s = .next (s.stream len.toNat 0).complete := by
  have body : s.streamCommand len 0 = s.stream len.toNat 0 := by
    rcases s.streamCommand_cases len 0 with ⟨h, _⟩ | ⟨_, h, _⟩ | ⟨_, _, e⟩
    · omega
    · exact absurd (h.symm.trans hc) Bool.false_ne_true
    · exact e
  rw [← body]
  exact completing_some hf _

/-- MUX of four bytes with no data is those bytes as a word (R460). -/
theorem mux_four_zero (t : List Byte) : mux 4 0 t = le32 (t.getD 0 0) (t.getD 1 0) (t.getD 2 0) (t.getD 3 0) := by
  simp [mux, muxLane, lane]

/-- Four keystream bytes at a position that is a multiple of 4 are the lanes of one word of their block (R205, R413). -/
theorem ksByte_aligned (key : KeyWords) (nonce : NonceWords) (c0 : BitVec 64) {T : Nat} (hT : T % 4 = 0) (i : Fin 4) :
    let S := initState key nonce (c0 + BitVec.ofNat 64 (T / 64))
    ksByte key nonce c0 (T + i) = lane ((feedForward (permute S) S)[T % 64 / 4]'(by omega)) i := by
  intro S
  have hb : (T + i) / 64 = T / 64 := by omega
  have hm : (T + i) % 64 = 4 * (T % 64 / 4) + i := by omega
  have hw : T % 64 / 4 < 16 := by omega
  rw [ksByte, hb, hm, block, List.getD_eq_getElem?_getD, serialize_getElem?, Vector.getElem?_eq_getElem hw]
  rfl

/-- Settles O16: `DOUT` is put together from the four bytes at the position, and these are the lanes of one word. -/
theorem alignedKeystreamIsABlockWord : Obligations.AlignedKeystreamIsABlockWord := by
  intro s f p h hf hT
  refine ⟨_, exec_keystream hf h.configured (by decide), ?_⟩
  intro S
  have hw : p.total % 64 / 4 < 16 := by omega
  have byte (i : Fin 4) : (ksBytes p.key p.nonce p.start p.total 4).getD i 0 =
      lane ((feedForward (permute S) S)[p.total % 64 / 4]) i :=
    (ksBytes_getD _ _ _ _ i.isLt).trans (ksByte_aligned _ _ _ hT i)
  have dout : mux 4 0 ((s.refill 4).pend.take 4) = (feedForward (permute S) S)[p.total % 64 / 4] := by
    rw [h.refill_take (by decide), mux_four_zero]
    exact (congr (congr (congr (congrArg le32 (byte 0)) (byte 1)) (byte 2)) (byte 3)).trans (le32_lanes _)
  rw [Vector.getElem?_eq_getElem hw]
  exact congrArg some dout

end Sys2Proof.Machine

/-! PROOFS of the family `30_encoding.md`: the opcode table and the two decoders (R300 to R309), and the encoder against them. -/

namespace Sys2Proof

/-! ### The shapes of a code -/

/-- Every selector is a read's or a write's, of some slot (R300). -/
theorem selector_cases {P : BitVec 7 → Prop} (read : ∀ a, P (readSel a)) (write : ∀ a, P (writeSel a)) (sel : BitVec 7) :
    P sel := by
  have shape : ∀ sel : BitVec 7, sel = readSel (sel.extractLsb' 0 6) ∨ sel = writeSel (sel.extractLsb' 0 6) := by
    decide +kernel
  rcases shape sel with h | h <;> rw [h]
  · exact read _
  · exact write _

/-- Every slot is one of the eighteen mapped ones, or unmapped (R301). -/
theorem slot_cases {P : BitVec 6 → Prop} (mapped : ∀ k < 18, P (BitVec.ofNat 6 k))
    (unmapped : ∀ a, unmappedSlot a = true → P a) (a : BitVec 6) : P a := by
  rcases Nat.lt_or_ge a.toNat 18 with h | h
  · simpa using mapped a.toNat h
  · exact unmapped a (decide_eq_true h)

/-- Every command word has a reserved bit set, or is put together from its `OP` and `LEN` (R302, R305). -/
theorem word_cases {P : Word → Prop} (reserved : ∀ w, w.extractLsb' 7 25 ≠ 0 → P w)
    (fields : ∀ op len, P (commandWord op len)) (w : Word) : P w := by
  by_cases h : w.extractLsb' 7 25 = 0
  · rw [word_eq_commandWord h]
    exact fields _ _
  · exact reserved w h

/-- The write bit of a selector (R300). -/
@[simp] theorem readSel_getLsbD_six (a : BitVec 6) : (readSel a).getLsbD 6 = false := by
  revert a; decide +kernel
@[inherit_doc readSel_getLsbD_six, simp] theorem writeSel_getLsbD_six (a : BitVec 6) : (writeSel a).getLsbD 6 = true := by
  revert a; decide +kernel

/-! ### From operations to codes and back -/

/-- Decoding undoes encoding for every operation: one law per constructor. -/
theorem Laws.RoundTrip.all : ∀ i : Instr, Statement i
  | .wrCtrl d => wrCtrl d
  | .rdCtrl => rdCtrl
  | .rdStatus => rdStatus
  | .wrStatus d => wrStatus d
  | .rdDin => rdDin
  | .wrDin d => wrDin d
  | .rdDout => rdDout
  | .wrDout d => wrDout d
  | .rdCtrLo => rdCtrLo
  | .rdCtrHi => rdCtrHi
  | .wrCtr h d => wrCtr h d
  | .rdCtrstgLo => rdCtrstgLo
  | .rdCtrstgHi => rdCtrstgHi
  | .wrCtrstgLo d => wrCtrstgLo d
  | .wrCtrstgHi d => wrCtrstgHi d
  | .wrKey k d => wrKey k d
  | .rdKey k => rdKey k
  | .wrNonce n d => wrNonce n d
  | .rdNonce n => rdNonce n
  | .rdUnmapped a => rdUnmapped a
  | .wrUnmapped a d => wrUnmapped a d
  | .nop => nop
  | .init => init
  | .setCounter => setCounter
  | .keystream n => keystream n
  | .crypt n => crypt n
  | .illegal w => illegal w
  | .engineStep => engineStep
  | .qr h l => qr h l
  | .columnRound => columnRound
  | .diagonalRound => diagonalRound
  | .doubleRound => doubleRound
  | .permute => permute
  | .initState k n c => initState k n c
  | .feedForward => feedForward
  | .serialize => serialize
  | .block k n c => block k n c

/-- Settles O20, by the round-trip law of each operation. -/
theorem decodeOfEncode : Obligations.DecodeOfEncode := Laws.RoundTrip.all

/-! ### From codes to operations and back -/

/-- A read's row is well-formed, and its encoding is the read's selector with no value (R301). -/
theorem decodeRead_wf_encode (a : BitVec 6) :
    (decodeRead a).wf = true ∧ encode (decodeRead a) = some (.bus (readSel a) 0) := by
  induction a using slot_cases with
  | mapped k hk => interval_cases k <;> exact ⟨rfl, rfl⟩
  | unmapped a h => rw [decodeRead_unmapped a h]; exact ⟨h, rfl⟩

/-- A write's row is well-formed, and its encoding is the write's selector with its value (R301). -/
theorem decodeWrite_wf_encode (a : BitVec 6) (d : Word) :
    (decodeWrite a d).wf = true ∧ encode (decodeWrite a d) = some (.bus (writeSel a) d) := by
  induction a using slot_cases with
  | mapped k hk => interval_cases k <;> exact ⟨rfl, rfl⟩
  | unmapped a h => rw [decodeWrite_unmapped a d h]; exact ⟨h, rfl⟩

/-- A command word's row is well-formed, and its encoding is the word (R303, R307). -/
theorem decodeRow_wf_encode (w : Word) : (decodeRow w).wf = true ∧ encode (decodeRow w) = some (.cmd w) := by
  induction w using word_cases with
  | reserved w h =>
    rw [(decode_reserved h).2]
    exact ⟨by simp only [Instr.wf, illegalWord, bne_iff_ne.mpr h, Bool.true_or], rfl⟩
  | fields op len => revert op len; decide +kernel

/-- Settles O21: a command word by its row, a selector by the row of its slot. -/
theorem encodeOfDecode : Obligations.EncodeOfDecode := by
  rintro (⟨sel, d⟩ | ⟨w⟩)
  · simp only [decode]
    induction sel using selector_cases with
    | read a =>
      rw [decodeBus_readSel, readSel_getLsbD_six]
      exact decodeRead_wf_encode a
    | write a =>
      rw [decodeBus_writeSel, writeSel_getLsbD_six]
      exact decodeWrite_wf_encode a d
  · exact decodeRow_wf_encode w

/-! ### The list of R303 -/

/-- R308's decoder finds a word legal when it reports neither of its two errors. -/
theorem decodeCommand_legal_iff (w : Word) : (∀ code, decodeCommand w ≠ .illegal code) ↔
    decodeCommand w ≠ .illegal .illegalCommand ∧ decodeCommand w ≠ .illegal .illegalLength := by
  constructor
  · exact fun h => ⟨h _, h _⟩
  · rintro ⟨hc, hl⟩ code h
    rcases Machine.decodeCommand_illegal h with rfl | rfl
    · exact hc h
    · exact hl h

/-- Settles O18: a reserved bit is set in no legal word and in no listed one; the other words are the 128 of `OP` and `LEN`. -/
theorem listedCommandWordsAreTheLegalOnes : Obligations.ListedCommandWordsAreTheLegalOnes := by
  refine ⟨fun w => ?_, rfl, rfl, rfl, by decide +kernel⟩
  rw [decodeCommand_legal_iff]
  induction w using word_cases with
  | reserved w h =>
    refine iff_of_false (fun legal => legal.1 (decode_reserved h).1) (mt ?_ h)
    clear h
    revert w
    simp
  | fields op len => revert op len; decide +kernel

/-! ### The opcode table -/

/-- The row of a selector does not depend on the value a write carries (R300). -/
theorem decodeBus_mnemonic (sel : BitVec 7) (d d' : Word) : (decodeBus sel d).mnemonic = (decodeBus sel d').mnemonic := by
  unfold decodeBus
  split
  · unfold decodeWrite
    split <;> rfl
  · rfl

/-- A pattern that asks for 0 in the bits 7 to 31 is matched by no word with a reserved bit set (R305). -/
theorem rsv_of_match {w : Word} {mask pattern : Nat} (hmask : mask >>> 7 = 2 ^ 25 - 1) (hpattern : pattern >>> 7 = 0)
    (h : w.toNat &&& mask = pattern) : w.extractLsb' 7 25 = 0 := by
  apply BitVec.eq_of_toNat_eq
  calc (w.extractLsb' 7 25).toNat
      = (w.toNat >>> 7) % 2 ^ 25 := BitVec.extractLsb'_toNat ..
    _ = (w.toNat &&& mask) >>> 7 := by rw [Nat.shiftRight_and_distrib, hmask, Nat.and_two_pow_sub_one_eq_mod]
    _ = 0 := by rw [h, hpattern]

/-- A word with a reserved bit set matches the default row alone (R305, R307). -/
theorem firstRow_reserved {w : Word} (h : w.extractLsb' 7 25 ≠ 0) : firstRow cmdRows w.toNat = some "ILLEGAL" := by
  have rsv : ∀ r ∈ cmdRows.dropLast, r.mask >>> 7 = 2 ^ 25 - 1 ∧ r.pattern >>> 7 = 0 := by decide +kernel
  have miss : cmdRows.dropLast.find? (fun r => w.toNat &&& r.mask == r.pattern) = none :=
    List.find?_eq_none.mpr fun r mem hit => h (rsv_of_match (rsv r mem).1 (rsv r mem).2 (eq_of_beq hit))
  have table : cmdRows = cmdRows.dropLast ++ [⟨"ILLEGAL", 0x0, 0x0⟩] := rfl
  rw [firstRow, table, List.find?_append, miss]
  simp

/-- Settles O19: the 128 selectors, the 128 words of `OP` and `LEN`, and the words with a reserved bit set. -/
theorem decodingFollowsTheOpcodeTable : Obligations.DecodingFollowsTheOpcodeTable := by
  constructor
  · have row : ∀ sel : BitVec 7, firstRow busRows sel.toNat = some (decodeBus sel 0).mnemonic := by decide +kernel
    intro sel d
    rw [decodeBus_mnemonic sel d 0, row]
  · intro w
    induction w using word_cases with
    | reserved w h => rw [firstRow_reserved h, (decode_reserved h).2]; rfl
    | fields op len => revert op len; decide +kernel

/-- Settles O22: each word is decoded. -/
theorem writtenOutWordsDecode : Obligations.WrittenOutWordsDecode := by
  unfold Obligations.WrittenOutWordsDecode
  decide +kernel

end Sys2Proof

/-! PROOFS of the family `40_block_function.md`: the quarter-round and its inverse, the lanes of a half-round, the round
pipeline, and the datapath rows (R400 to R418). -/

namespace Sys2Proof.Machine

/-! ### Rotations -/

/-- R10's rotation by shifts is the circular one. -/
theorem rotl32_eq_rotateLeft (v : Word) {n : Nat} (h : n < 32) : rotl32 v n = v.rotateLeft n := by
  rw [rotl32, BitVec.rotateLeft_def, Nat.mod_eq_of_lt h]

/-- A rotation to the right undoes the one to the left. -/
theorem rotateRight_rotateLeft {w : Nat} (v : BitVec w) (n : Nat) : (v.rotateLeft n).rotateRight n = v := by
  apply BitVec.eq_of_getElem_eq
  intro i hi
  have hn : n % w < w := Nat.mod_lt n (by omega)
  rw [BitVec.getElem_rotateRight]
  split
  · rw [BitVec.getElem_rotateLeft, dif_neg (by omega)]
    congr 1; omega
  · rw [BitVec.getElem_rotateLeft, dif_pos (by omega)]
    congr 1; omega

/-- A rotation to the left undoes the one to the right. -/
theorem rotateLeft_rotateRight {w : Nat} (v : BitVec w) (n : Nat) : (v.rotateRight n).rotateLeft n = v := by
  apply BitVec.eq_of_getElem_eq
  intro i hi
  have hn : n % w < w := Nat.mod_lt n (by omega)
  rw [BitVec.getElem_rotateLeft]
  split
  · rw [BitVec.getElem_rotateRight, dif_neg (by omega)]
    congr 1; omega
  · rw [BitVec.getElem_rotateRight, dif_pos (by omega)]
    congr 1; omega

/-! ### The quarter-round -/

/-- Settles O28: the four rotations of R402 are by fewer than 32 places. -/
theorem quarterRoundFollowsItsSteps : Obligations.QuarterRoundFollowsItsSteps := by
  intro a b c d
  simp (disch := decide) only [qr, rotl32_eq_rotateLeft]

namespace Quad

/-- The quarter-round of four words (R402). -/
def mix (q : Quad) : Quad := qr q.a q.b q.c q.d

/-- One line of R402, an addition, an exclusive-or and a rotation by `n`; the word pairs then change places, so that the next
line acts on the other pair. -/
def line (n : Nat) (q : Quad) : Quad := ⟨q.c, rotl32 (q.d ^^^ (q.a + q.b)) n, q.a + q.b, q.b⟩

/-- The line of R402 undone. -/
def unline (n : Nat) (q : Quad) : Quad := ⟨q.c - q.d, q.d, q.a, q.b.rotateRight n ^^^ q.c⟩

/-- The quarter-round is four lines, with the rotations of R402. -/
theorem mix_eq_lines : mix = line 7 ∘ line 8 ∘ line 12 ∘ line 16 := rfl

theorem unline_line {n : Nat} (h : n < 32) (q : Quad) : unline n (line n q) = q := by
  simp only [unline, line, rotl32_eq_rotateLeft _ h, rotateRight_rotateLeft, BitVec.add_sub_cancel, BitVec.xor_assoc,
    BitVec.xor_self, BitVec.xor_zero]

theorem line_unline {n : Nat} (h : n < 32) (q : Quad) : line n (unline n q) = q := by
  simp only [unline, line, rotl32_eq_rotateLeft _ h, BitVec.sub_add_cancel, BitVec.xor_assoc, BitVec.xor_self,
    BitVec.xor_zero, rotateLeft_rotateRight]

theorem line_bijective {n : Nat} (h : n < 32) : Function.Bijective (line n) :=
  Function.bijective_iff_has_inverse.mpr ⟨unline n, unline_line h, line_unline h⟩

/-- The quarter-round is a bijection, line by line (R403). -/
theorem mix_bijective : Function.Bijective mix := by
  rw [mix_eq_lines]
  exact (line_bijective (by decide)).comp <| (line_bijective (by decide)).comp <|
    (line_bijective (by decide)).comp (line_bijective (by decide))

end Quad

/-- Settles O29: each line of the quarter-round can be undone. -/
theorem quarterRoundIsABijection : Obligations.QuarterRoundIsABijection :=
  ⟨by decide, Quad.mix_bijective.existsUnique⟩

/-! ### The lanes of a half-round -/

/-- The four words of one lane of a half-round (R404, R405). -/
def quad (h : Half) (l : Fin 4) (x : Block) : Quad :=
  let g := group h l
  ⟨x[g.a], x[g.b], x[g.c], x[g.d]⟩

/-- Position `j` belongs to a group (R404, R405). -/
def Group.Has (g : Group) (j : Fin 16) : Prop := j = g.a ∨ j = g.b ∨ j = g.c ∨ j = g.d

theorem Group.not_has_iff {g : Group} {j : Fin 16} : ¬ g.Has j ↔ j ≠ g.a ∧ j ≠ g.b ∧ j ≠ g.c ∧ j ≠ g.d := by
  simp only [Group.Has, not_or]

/-- The four positions of a group are four (R404, R405). -/
theorem group_distinct (h : Half) (l : Fin 4) :
    let g := group h l
    g.a ≠ g.b ∧ g.a ≠ g.c ∧ g.a ≠ g.d ∧ g.b ≠ g.c ∧ g.b ≠ g.d ∧ g.c ≠ g.d := by
  cases h <;> revert l <;> decide

/-- The groups of a half-round cover the working state (R407). -/
theorem group_cover (h : Half) (j : Fin 16) : ∃ l, (group h l).Has j := by
  unfold Group.Has; cases h <;> revert j <;> decide

/-- The groups of a half-round do not meet (R407). -/
theorem group_disjoint (h : Half) {l m : Fin 4} (hlm : l ≠ m) (j : Fin 16) (hl : (group h l).Has j) :
    ¬ (group h m).Has j := by
  unfold Group.Has at *; cases h <;> revert l m j <;> decide

/-- One lane replaces the words of its group by their quarter-round (R402). -/
theorem quad_qrLane_same (h : Half) (l : Fin 4) (x : Block) : quad h l (qrLane h l x) = (quad h l x).mix := by
  obtain ⟨hab, hac, had, hbc, hbd, hcd⟩ := group_distinct h l
  simp [quad, qrLane, Quad.mix, Fin.val_inj, hab.symm, hac.symm, had.symm, hbc.symm, hbd.symm, hcd.symm]

/-- One lane leaves every word outside its group (R407). -/
theorem qrLane_getElem_of_not_has {h : Half} {l : Fin 4} {j : Fin 16} (hj : ¬ (group h l).Has j) (x : Block) :
    (qrLane h l x)[j] = x[j] := by
  obtain ⟨ha, hb, hc, hd⟩ := Group.not_has_iff.mp hj
  simp [qrLane, Fin.val_inj, ha.symm, hb.symm, hc.symm, hd.symm]

/-- One lane leaves the words of every other lane (R407). -/
theorem quad_qrLane_ne (h : Half) {l m : Fin 4} (hlm : l ≠ m) (x : Block) : quad h l (qrLane h m x) = quad h l x := by
  have keep (j : Fin 16) (hj : (group h l).Has j) : (qrLane h m x)[j] = x[j] :=
    qrLane_getElem_of_not_has (group_disjoint h hlm j hj) x
  simp only [quad, keep _ (.inl rfl), keep _ (.inr (.inl rfl)), keep _ (.inr (.inr (.inl rfl))),
    keep _ (.inr (.inr (.inr rfl)))]

/-- A working state is determined by the words of its four lanes (R404, R405). -/
theorem eq_of_quad_eq (h : Half) {x y : Block} (e : ∀ l, quad h l x = quad h l y) : x = y := by
  apply Vector.ext
  intro j hj
  obtain ⟨l, hl⟩ := group_cover h ⟨j, hj⟩
  obtain ⟨ha, hb, hc, hd⟩ := Quad.mk.inj (e l)
  have word (i : Fin 16) (hi : (group h l).Has i) : x[i] = y[i] := by
    rcases hi with rfl | rfl | rfl | rfl <;> assumption
  exact word ⟨j, hj⟩ hl

/-- Lanes done one after another, none of them twice: those done have had their quarter-round, the others have not (R407). -/
theorem quad_foldl_qrLane (h : Half) (l : Fin 4) {lanes : List (Fin 4)} (nodup : lanes.Nodup) (x : Block) :
    quad h l (lanes.foldl (fun y m => qrLane h m y) x) = if l ∈ lanes then (quad h l x).mix else quad h l x := by
  induction lanes generalizing x with
  | nil => rfl
  | cons m lanes ih =>
    obtain ⟨hm, nodup⟩ := List.nodup_cons.mp nodup
    rw [List.foldl_cons, ih nodup]
    by_cases hlm : l = m
    · subst hlm
      rw [if_neg hm, if_pos List.mem_cons_self, quad_qrLane_same]
    · simp only [quad_qrLane_ne h hlm, List.mem_cons, hlm, false_or]

/-- The half-round of a half (R404, R405). -/
def halfRound : Half → Block → Block
  | .column => columnRound
  | .diagonal => diagonalRound

/-- A half-round is the quarter-round of each of its lanes (R404, R405). -/
theorem quad_halfRound (h : Half) (l : Fin 4) (x : Block) : quad h l (halfRound h x) = (quad h l x).mix := by
  cases h <;> fin_cases l <;> rfl

/-- The four lanes in any order are the half-round (R407). -/
theorem foldl_qrLane_eq_halfRound (h : Half) {lanes : List (Fin 4)} (perm : lanes.Perm [0, 1, 2, 3]) (x : Block) :
    lanes.foldl (fun y l => qrLane h l y) x = halfRound h x := by
  have nodup : lanes.Nodup := perm.nodup_iff.mpr (by decide)
  have all (l : Fin 4) : l ∈ lanes := perm.mem_iff.mpr (by revert l; decide)
  exact eq_of_quad_eq h fun l => by rw [quad_foldl_qrLane h l nodup, if_pos (all l), quad_halfRound]

/-- Settles O32: each lane gets its quarter-round once, whatever the order, because the groups do not meet. -/
theorem lanesOfAHalfRoundCommute : Obligations.LanesOfAHalfRoundCommute :=
  fun _ x perm => ⟨foldl_qrLane_eq_halfRound .column perm x, foldl_qrLane_eq_halfRound .diagonal perm x⟩

/-- Settles O30: by what one lane does to its group, and to the words outside it. -/
theorem qrRowReplacesItsGroup : Obligations.QrRowReplacesItsGroup := by
  intro h l s
  refine ⟨qrLane h l s.dp.x, rfl, quad_qrLane_same h l s.dp.x, fun j ha hb hc hd => ?_⟩
  exact qrLane_getElem_of_not_has (Group.not_has_iff.mpr ⟨ha, hb, hc, hd⟩) s.dp.x

/-- Settles O31: lane by lane. -/
theorem halfRoundsMixTheirGroups : Obligations.HalfRoundsMixTheirGroups := by
  intro s
  have mixed (h : Half) (l : Fin 4) := quad_halfRound h l s.dp.x
  exact ⟨⟨_, rfl, mixed .column 0, mixed .column 1, mixed .column 2, mixed .column 3⟩,
    _, rfl, mixed .diagonal 0, mixed .diagonal 1, mixed .diagonal 2, mixed .diagonal 3⟩

/-! ### Double-rounds -/

/-- Settles O33: the datapath's DOUBLE_ROUND is its DIAGONAL_ROUND after its COLUMN_ROUND. -/
theorem doubleRoundReadsTheColumnOutputs : Obligations.DoubleRoundReadsTheColumnOutputs :=
  fun _ => ⟨_, _, rfl, rfl, rfl⟩

theorem doubleRounds_eq_iterate (n : Nat) (x : Block) : doubleRounds n x = doubleRound^[n] x := by
  induction n generalizing x with
  | zero => rfl
  | succ n ih => exact ih (doubleRound x)

/-- PERMUTE is ten double-rounds (R408). -/
theorem permute_eq_iterate (x : Block) : permute x = doubleRound^[10] x := doubleRounds_eq_iterate 10 x

/-- Settles O34: the pipeline carries out PERMUTE, which is ten double-rounds. -/
theorem pipelineCarriesOutTenDoubleRounds : Obligations.PipelineCarriesOutTenDoubleRounds := by
  intro s
  rw [← permute_eq_iterate]
  exact congrArg (fun dp => Host.Outcome.next { s with dp := dp }) (datapath_permute s.dp)

/-! ### The lines of a block -/

/-- The words of an array, listed by position. -/
theorem toList_eq_ofFn {α : Type} {n : Nat} (v : Vector α n) : v.toList = List.ofFn fun i : Fin n => v[i] := by
  rw [← Vector.toList_ofFn]
  exact congrArg Vector.toList Vector.ofFn_getElem.symm

/-- Settles O35: the key's eight words and the nonce's two are listed by position. -/
theorem inputStateLayout : Obligations.InputStateLayout := by
  intro key nonce c s
  refine ⟨_, rfl, ?_⟩
  rw [toList_eq_ofFn key, toList_eq_ofFn nonce]
  rfl

/-- Settles O36: FEED_FORWARD adds position by position. -/
theorem feedForwardAddsWordByWord : Obligations.FeedForwardAddsWordByWord :=
  fun _ => ⟨_, rfl, fun i => Vector.getElem_zipWith i.isLt⟩

/-- Settles O37: byte `4j + i` of a serialized block is lane `i` of word `j`. -/
theorem serializeIsLittleEndian : Obligations.SerializeIsLittleEndian := by
  intro s
  refine ⟨_, rfl, serialize_length s.dp.z, fun j i => ?_⟩
  rw [serialize_getElem?, Vector.getElem?_eq_getElem j.isLt]
  rfl

/-- Settles O38: the registers' BLOCK gives the bytes of the pure one, and its end leaves them. -/
theorem blockFollowsItsLines : Obligations.BlockFollowsItsLines := by
  intro key nonce c s
  have bytes : (s.runBlock key nonce c).dp.bytes = block key nonce c := Datapath.block_bytes key nonce c s.dp
  refine ⟨s.runBlock key nonce c, rfl, rfl, ?_, ?_⟩
  · rw [bytes, ← permute_eq_iterate]
    rfl
  · rw [bytes, block_length]

/-! ### The frame of the datapath rows -/

/-- Settles O39: each of the nine rows is an update of the datapath; BLOCK also draws a free value. -/
theorem datapathRowsWriteOnlyTheDatapath : Obligations.DatapathRowsWriteOnlyTheDatapath := by
  intro i s h
  cases i with
  | qr _ _ | columnRound | diagonalRound | doubleRound | permute | initState _ _ _ | feedForward | serialize
  | block _ _ _ => exact ⟨_, rfl, rfl⟩
  | _ => exact absurd h Bool.false_ne_true

end Sys2Proof.Machine

/-! PROOFS of the family `41_stream_commands.md`: the invariant of the registers (R463), the position law (R464), the stream
commands (R455 to R462), and host programs of them (R465, R466). -/

namespace Sys2Proof.Machine

/-! ### The invariant -/

/-- Settles O41: nothing is set, nothing is held, and no word differs from 0. -/
theorem invariantHoldsAtReset : Obligations.InvariantHoldsAtReset where
  level := Nat.zero_le _
  keyStage k _ := by fin_cases k <;> rfl
  nonceStage n _ := by fin_cases n <;> rfl
  masks _ h := nomatch h
  whole h := nomatch h
  blank _ := ⟨rfl, rfl, rfl, rfl, rfl, rfl⟩

/-- Setting one more bit of a mask keeps what it holds (R102, R104). -/
theorem maskLe.setBit {w : Nat} {a b : BitVec w} (h : maskLe a b) (i : Nat) : maskLe a (setBit b i) := by
  unfold maskLe at h
  apply BitVec.eq_of_getLsbD_eq
  intro j _
  have hj := congrArg (·.getLsbD j) h
  simp only [BitVec.getLsbD_and, Bool.and_eq_left_iff_imp] at hj
  simp only [Machine.setBit, BitVec.getLsbD_and, BitVec.getLsbD_or, Bool.and_eq_left_iff_imp]
  intro ha
  rw [hj ha, Bool.true_or]

/-- Only a full mask holds every bit of a full one. -/
theorem maskLe.eq_of_full {w : Nat} {b : BitVec w} (h : maskLe (BitVec.allOnes w) b) : b = BitVec.allOnes w :=
  BitVec.allOnes_and.symm.trans h

/-- A staging word no write has reached is still 0 after a write of another one (R101 to R104, R567, R569). -/
theorem staged_zero_set {m : Nat} {mask : BitVec m} {words : Vector Word m}
    (h : ∀ j : Fin m, mask.getLsbD j = false → words[j] = 0) (i : Fin m) (d : Word) (j : Fin m)
    (hj : (setBit mask i).getLsbD j = false) : (words.set i d)[j] = 0 := by
  rw [setBit_getLsbD _ _ _ j.isLt, Bool.or_eq_false_iff, decide_eq_false_iff_not] at hj
  exact (Vector.getElem_set_ne i.isLt j.isLt (Ne.symm hj.2)).trans (h j hj.1)

/-- A full mask stays full (R505). -/
theorem setBit_full_key : ∀ k : Fin 8, setBit (0xFF : BitVec 8) k = 0xFF := by decide
@[inherit_doc setBit_full_key] theorem setBit_full_nonce : ∀ n : Fin 2, setBit (0x3 : BitVec 2) n = 0x3 := by decide

/-- STREAM leaves at most 63 bytes in `PEND` (R463): a refill comes only when fewer bytes are held than the command takes. -/
theorem State.stream_level {s : State} (h : s.pend.length ≤ Config.pendMax) (m : Nat) (d : Word) :
    (s.stream m d).pend.length ≤ Config.pendMax := by
  unfold Config.pendMax at h ⊢
  rw [stream_pend, refill_pend, List.length_drop]
  split
  · rw [List.length_append, block_length]; omega
  · omega

/-- Settles O42, by the cases of a step. An INIT that passes its checks was issued with both masks full, and they have lost no bit
since; a command that would move an unconfigured engine fails. -/
theorem stepKeepsTheInvariant : Obligations.StepKeepsTheInvariant := by
  intro s t hs h
  cases step_cases h with
  | reset p _ => exact { (invariantHoldsAtReset : State.reset.Inv) with }
  | issue w _ _ =>
    refine { hs with masks := ?_ }
    rintro f ⟨⟩
    exact ⟨BitVec.and_self, BitVec.and_self⟩
  | writeStatus d _ =>
    refine { hs with blank := fun hc => ?_ }
    obtain ⟨hk, hn, hctr, hp, hd, hw⟩ := hs.blank hc
    exact ⟨hk, hn, hctr, hp, hd, by simp [hw]⟩
  | writeKey k d _ =>
    exact { hs with
      keyStage := staged_zero_set hs.keyStage k d
      masks := fun f hf => ⟨(hs.masks f hf).1.setBit k, (hs.masks f hf).2⟩
      whole := fun hc => ⟨(hs.whole hc).1 ▸ setBit_full_key k, (hs.whole hc).2⟩ }
  | writeNonce n d _ =>
    exact { hs with
      nonceStage := staged_zero_set hs.nonceStage n d
      masks := fun f hf => ⟨(hs.masks f hf).1, (hs.masks f hf).2.setBit n⟩
      whole := fun hc => ⟨(hs.whole hc).1, (hs.whole hc).2 ▸ setBit_full_nonce n⟩ }
  | fails code _ _ _ _ => exact { hs with masks := nofun }
  | nopCompletes _ _ => exact { hs with masks := nofun }
  | initCompletes f hf =>
    obtain ⟨_, hi, _, hk, hn⟩ := hf
    obtain ⟨hkm, hnm⟩ := hs.masks f hi
    exact { hs with
      level := Nat.zero_le _
      masks := nofun
      whole := fun _ => ⟨(hk ▸ hkm).eq_of_full, (hn ▸ hnm).eq_of_full⟩
      blank := nofun }
  | seekCompletes f hf =>
    obtain ⟨_, _, _, hc⟩ := hf
    exact { hs with
      level := Nat.zero_le _
      masks := nofun
      blank := fun hc' => absurd (hc'.symm.trans hc) Bool.false_ne_true }
  | streamCompletes f m d hf =>
    obtain ⟨_, _, hc, _⟩ := hf
    exact {
      level := State.stream_level (s := s.popped) hs.level m d
      keyStage := by simpa using hs.keyStage
      nonceStage := by simpa using hs.nonceStage
      masks := nofun
      whole := by simpa using hs.whole
      blank := fun hc' => absurd (hc'.symm.trans (by simpa using hc)) Bool.false_ne_true }
  | _ => exact { hs with }

/-! ### The position law -/

/-- What a keystream position speaks of: CONFIGURED, `K`, `N`, `C` and `PEND` (R464). -/
def State.engine (s : State) : Bool × KeyWords × NonceWords × BitVec 64 × List Byte :=
  (s.configured, s.k, s.n, s.c, s.pend)

/-- A position is told from these five registers alone. -/
theorem AtPosition.of_engine_eq {p : Position} {s t : State} (h : AtPosition p s) (e : t.engine = s.engine) :
    AtPosition p t := by
  simp only [State.engine, Prod.mk.injEq] at e
  obtain ⟨hc, hk, hn, hctr, hp⟩ := e
  exact ⟨hc.trans h.configured, hk.trans h.key, hn.trans h.nonce, hctr.trans h.counter, hp.trans h.buffer⟩

@[inherit_doc AtPosition.of_engine_eq]
theorem AtPositionOpt.of_engine_eq {p : Option Position} {s t : State} (h : AtPositionOpt p s)
    (e : t.engine = s.engine) : AtPositionOpt p t := by
  cases p with
  | none => exact (congrArg Prod.fst e).trans h
  | some p => exact AtPosition.of_engine_eq h e

/-- No access writes these registers (R573, R603). -/
theorem exec_access_engine {a : Access} {s t : State} (h : exec a.instr s = .next t) : t.engine = s.engine := by
  unfold Access.instr at h
  rcases exec_decodeBus_cases (selector a.we a.addr) a.wdata s with
    ⟨_, e⟩ | e | ⟨_, _, e⟩ | ⟨_, _, e⟩ | ⟨_, e⟩ | ⟨_, e⟩ | ⟨_, _, e⟩ | ⟨_, _, e⟩ | ⟨_, _, e⟩ <;>
    obtain rfl := Host.Outcome.next.inj (e.symm.trans h) <;> rfl

/-- A stretch of keystream with its first bytes gone. -/
theorem ksBytes_drop (key : KeyWords) (nonce : NonceWords) (c0 : BitVec 64) (i n m : Nat) :
    (ksBytes key nonce c0 i m).drop n = ksBytes key nonce c0 (i + n) (m - n) := by
  by_cases h : n ≤ m
  · have split := ksBytes_append key nonce c0 i n (m - n)
    rw [Nat.add_sub_cancel' h] at split
    rw [← split, List.drop_left' (ksBytes_length ..)]
  · rw [List.drop_of_length_le (by simp; omega), Nat.sub_eq_zero_of_le (by omega)]
    rfl

/-- `C` after REFILL counts the blocks that `n` more bytes need (R457, R464). -/
theorem AtPosition.refill_c {p : Position} {s : State} (h : AtPosition p s) {n : Nat} (hn : n ≤ 64) :
    (s.refill n).c = p.start + BitVec.ofNat 64 (blocksFor (p.total + n)) := by
  have hlen : s.pend.length = 64 * blocksFor p.total - p.total := by rw [h.buffer, ksBytes_length]
  rw [State.refill_c, h.counter]
  split
  next hlt =>
    have grown : blocksFor (p.total + n) = blocksFor p.total + 1 := by unfold blocksFor at hlen ⊢; omega
    rw [grown, BitVec.ofNat_add, BitVec.add_assoc]; rfl
  next hge =>
    have same : blocksFor (p.total + n) = blocksFor p.total := by unfold blocksFor at hlen ⊢; omega
    rw [same]

/-- STREAM of `n` bytes moves the position by `n` (R455, R464). -/
theorem AtPosition.stream {p : Position} {s : State} (h : AtPosition p s) {n : Nat} (hn : n ≤ 64) (d : Word) :
    AtPosition { p with total := p.total + n } (s.stream n d) where
  configured := (State.stream_configured n d s).trans h.configured
  key := (State.stream_k n d s).trans h.key
  nonce := (State.stream_n n d s).trans h.nonce
  counter := (State.stream_c n d s).trans (h.refill_c hn)
  buffer := by rw [State.stream_pend, h.refill_pend hn, ksBytes_drop, Nat.sub_sub]

/-- A stream command of a decoded length moves the position of a configured engine by that length, and fails on an unconfigured
one (R450, R464). -/
theorem AtPositionOpt.streamCommand {p : Option Position} {s : State} (h : AtPositionOpt p s) {n : BitVec 3}
    (hn : n.toNat ≤ 4) (d : Word) :
    AtPositionOpt (p.map fun q => { q with total := q.total + n.toNat }) (s.streamCommand n d) := by
  rcases s.streamCommand_cases n d with ⟨hlen, _⟩ | ⟨_, hc, e⟩ | ⟨_, hc, e⟩
  · omega
  · cases p with
    | none => rw [e]; exact h
    | some p => exact absurd (hc.symm.trans h.configured) Bool.false_ne_true
  · cases p with
    | none => exact absurd (h.symm.trans hc) Bool.false_ne_true
    | some p => rw [e]; exact AtPosition.stream h (by omega) d

/-- A configured engine with an empty buffer stands at byte 0 of the keystream that starts at its counter (R464). -/
theorem AtPosition.of_pend_nil {s : State} {key : KeyWords} {nonce : NonceWords} {c : BitVec 64}
    (configured : s.configured = true) (hk : s.k = key) (hn : s.n = nonce) (hc : s.c = c) (hp : s.pend = []) :
    AtPosition ⟨key, nonce, c, 0⟩ s :=
  ⟨configured, hk, hn, by simp [blocksFor, hc], by simp [blocksFor, ksBytes, hp]⟩

/-- INIT starts a position when it passes its checks (R502). -/
theorem AtPositionOpt.initBody {p : Option Position} {s : State} (h : AtPositionOpt p s) (f : Inflight) :
    AtPositionOpt (if f.kmask = 0xFF ∧ f.nmask = 0x3 then some ⟨f.key, f.nonce, f.ctr, 0⟩ else p) (initBody f s) := by
  by_cases hk : f.kmask = 0xFF
  · by_cases hn : f.nmask = 0x3
    · rw [if_pos ⟨hk, hn⟩, initBody_ok hk hn]
      exact AtPosition.of_pend_nil rfl rfl rfl rfl rfl
    · rw [if_neg fun both => hn both.2, initBody_nonce hk hn]
      exact h.of_engine_eq rfl
  · rw [if_neg fun both => hk both.1, initBody_key hk]
    exact h.of_engine_eq rfl

/-- SET_COUNTER starts a position of a configured engine, under its key and nonce (R506). -/
theorem AtPositionOpt.setCounterBody {p : Option Position} {s : State} (h : AtPositionOpt p s) (f : Inflight) :
    AtPositionOpt (p.map fun q => { q with start := f.ctr, total := 0 }) (setCounterBody f s) := by
  cases p with
  | none => rw [setCounterBody_not h]; exact h
  | some p =>
    obtain ⟨hc, hk, hn, _, _⟩ := h
    rw [setCounterBody_ok hc]
    exact AtPosition.of_pend_nil hc hk hn rfl rfl

/-- The position after a completion is the one R464 gives. -/
theorem AtPositionOpt.commandBody {p : Option Position} {s : State} (h : AtPositionOpt p s) (f : Inflight) :
    AtPositionOpt (positionAfter f p) (commandBody f s) := by
  unfold positionAfter Machine.commandBody
  cases hd : decodeCommand f.cmd with
  | illegal code => exact h.of_engine_eq rfl
  | nop => exact h
  | init => exact h.initBody f
  | setCounter => exact h.setCounterBody f
  | keystream n => exact h.streamCommand (decodeCommand_length (.inl hd)) 0
  | crypt n => exact h.streamCommand (decodeCommand_length (.inr hd)) f.din

/-- The engine's turn completes the command in flight, if there is one (R575). -/
theorem AtPositionOpt.engineStep {p : Option Position} {s t : State} (h : AtPositionOpt p s)
    (ht : execEngineStep s = .next t) : AtPositionOpt (s.inflight.elim p (positionAfter · p)) t := by
  rcases execEngineStep_cases ht with ⟨hf, rfl⟩ | ⟨f, hf, rfl⟩ <;> rw [hf]
  · exact h
  · exact (h.commandBody f).of_engine_eq rfl

/-- Settles O53, by the event the step takes. -/
theorem stepFollowsThePositionLaw : Obligations.StepFollowsThePositionLaw := by
  intro s t p hp h
  unfold nextPosition
  cases hi : s.input with
  | nil =>
    rw [step_nil hi] at h
    exact hp.engineStep h
  | cons e rest =>
    rw [step_cons hi] at h
    have hp' : AtPositionOpt p { s with input := rest } := hp.of_engine_eq rfl
    cases e with
    | access a => exact hp'.of_engine_eq (exec_access_engine h)
    | engine => exact hp'.engineStep h
    | reset presented => obtain rfl := Host.Outcome.next.inj h; rfl
    | idle => obtain rfl := Host.Outcome.next.inj h; exact hp'

/-! ### One stream command -/

/-- A stream command of a legal length on a configured engine runs the procedure (R450). -/
theorem State.streamCommand_ok {s : State} {len : BitVec 3} (hc : s.configured = true) (hlen : len.toNat ≤ 4) (d : Word) :
    s.streamCommand len d = s.stream len.toNat d := by
  rcases s.streamCommand_cases len d with ⟨h, _⟩ | ⟨_, h, _⟩ | ⟨_, _, e⟩
  · omega
  · exact absurd (h.symm.trans hc) Bool.false_ne_true
  · exact e

/-- A legal KEYSTREAM or CRYPT on a configured engine is STREAM and the completion (R452, R453). -/
theorem exec_stream {s : State} {f : Inflight} {len : BitVec 3} {i : Instr} {d : Word} (hf : s.inflight = some f)
    (hc : s.configured = true) (hlen : len.toNat ≤ 4)
    (hi : i = .keystream len ∧ d = 0 ∨ i = .crypt len ∧ d = f.din) :
    exec i s = .next (s.stream len.toNat d).complete := by
  rcases hi with ⟨rfl, rfl⟩ | ⟨rfl, rfl⟩
  · exact exec_keystream hf hc hlen
  · rw [← State.streamCommand_ok hc hlen]
    exact completing_some hf _

/-- The same of what ENGINE_STEP decodes (R308, R575). -/
theorem commandBody_stream {s : State} {f : Inflight} {len : BitVec 3} {d : Word} (hc : s.configured = true)
    (hd : decodeCommand f.cmd = .keystream len ∧ d = 0 ∨ decodeCommand f.cmd = .crypt len ∧ d = f.din) :
    commandBody f s = s.stream len.toNat d := by
  rw [← State.streamCommand_ok hc (decodeCommand_length (hd.imp And.left And.left))]
  unfold commandBody
  rcases hd with ⟨hd, rfl⟩ | ⟨hd, rfl⟩ <;> rw [hd]

/-- The lanes of `DOUT` after STREAM (R460, R461). -/
theorem State.lane_stream_dout (n : Nat) (d : Word) (s : State) {j : Nat} (hj : j < 4) :
    lane (s.stream n d).dout j = if j < n then lane d j ^^^ (s.refill n).pend.getD j 0 else 0 := by
  rw [stream_dout, lane_mux n d _ ⟨j, hj⟩]
  unfold muxLane
  split
  next h => simp [h]
  next => rfl

/-- STREAM as one update of the registers it writes; what it leaves of the datapath is dead (R450, R455). -/
theorem State.stream_update (n : Nat) (d : Word) (s : State) :
    { s.stream n d with dp := s.dp, tick := s.tick } =
      { s with
        dout := (s.stream n d).dout, pend := (s.refill n).pend.drop n, c := (s.refill n).c
        wrapped := (s.refill n).wrapped } := by
  unfold stream refill; split <;> rfl

/-- STREAM with enough bytes in `PEND` writes `DOUT` and takes the bytes (R457, R458). -/
theorem State.stream_of_le {n : Nat} {s : State} (h : n ≤ s.pend.length) (d : Word) :
    s.stream n d = { s with dout := mux n d (s.pend.take n), pend := s.pend.drop n } := by
  unfold stream
  rw [refill_of_le h]
  rfl

/-- MUX of no bytes (R461). -/
theorem mux_zero (d : Word) (t : List Byte) : mux 0 d t = 0 := by
  show le32 0 0 0 0 = 0
  decide

/-- Settles O14: the procedure's three operations, each by what it does to the registers. -/
theorem streamCommandsConsumeAndOutput : Obligations.StreamCommandsConsumeAndOutput := by
  intro s f len i d hf hc hlen hi n refills held
  have pend : (s.refill n).pend = held := by simp [held, refills]
  refine ⟨_, exec_stream hf hc hlen hi, pend ▸ State.le_refill_length (by omega), ?_, ?_, ?_, ?_⟩
  · intro level
    rw [← pend, State.refill_pend]
    split
    · rw [List.length_append, block_length]; omega
    · omega
  · intro j hj
    rw [← pend]
    exact s.lane_stream_dout n d hj
  · refine (congrArg State.complete (s.stream_update n d)).trans ?_
    have c : (s.refill n).c = if refills then s.c + 1 else s.c := by simp [refills]
    have wrapped : (s.refill n).wrapped = (s.wrapped || (refills && s.c == 0xFFFFFFFFFFFFFFFF)) := by
      rw [State.refill_wrapped]
      by_cases h : s.pend.length < n
      · simp only [refills, h, decide_true, Bool.true_and, if_true]; rfl
      · simp [refills, h]
    rw [pend, c, wrapped]
    rfl
  · intro h
    rw [State.stream_of_le (Nat.le_of_not_lt (of_decide_eq_false h))]
    exact ⟨rfl, rfl⟩

/-- Settles O15: no refill, no byte taken, and no lane below 0. -/
theorem zeroLengthStreamLeavesTheBuffer : Obligations.ZeroLengthStreamLeavesTheBuffer := by
  intro s f i hf hi
  constructor
  · intro hc
    obtain ⟨d, hd⟩ : ∃ d, i = .keystream 0 ∧ d = 0 ∨ i = .crypt 0 ∧ d = f.din := by
      rcases hi with rfl | rfl <;> simp
    have zero : s.stream 0 d = { s with dout := 0 } := by
      rw [State.stream_of_le (Nat.zero_le _), mux_zero, List.drop_zero]
    exact (exec_stream hf hc (by decide) hd).trans (congrArg (Host.Outcome.next ∘ State.complete) zero)
  · intro hc
    have fails (d : Word) : s.streamCommand 0 d = s.raise .notConfigured := by
      rcases s.streamCommand_cases 0 d with ⟨h, _⟩ | ⟨_, _, e⟩ | ⟨_, h, _⟩
      · exact absurd h (by decide)
      · exact e
      · exact absurd (hc.symm.trans h) Bool.false_ne_true
    rcases hi with rfl | rfl
    · exact (completing_some hf _).trans (congrArg (Host.Outcome.next ∘ State.complete) (fails 0))
    · exact (completing_some hf _).trans (congrArg (Host.Outcome.next ∘ State.complete) (fails f.din))

/-- At a position, the lanes of `DOUT` below `n` are the keystream bytes there, exclusive-or the data (R460, R464). -/
theorem AtPosition.lane_stream_dout {p : Position} {s : State} (h : AtPosition p s) {n : Nat} (hn : n ≤ 4) (d : Word)
    {j : Nat} (hj : j < n) :
    lane (s.stream n d).dout j = lane d j ^^^ ksByte p.key p.nonce p.start (p.total + j) := by
  rw [s.lane_stream_dout n d (by omega), if_pos hj, h.refill_pend (by omega), ksBytes_getD]
  unfold blocksFor; omega

/-- Settles O54: the position moves with the bytes taken, and these stand in DOUT; the data of KEYSTREAM is 0. -/
theorem streamOutputsTheBytesAtItsPosition : Obligations.StreamOutputsTheBytesAtItsPosition := by
  intro s f p len h hf hlen
  have moved (d : Word) : AtPosition { p with total := p.total + len.toNat } (s.stream len.toNat d).complete :=
    (h.stream (by omega) d).of_engine_eq rfl
  refine ⟨⟨_, exec_stream hf h.configured hlen (.inl ⟨rfl, rfl⟩), moved 0, fun j hj => ?_⟩,
    _, exec_stream hf h.configured hlen (.inr ⟨rfl, rfl⟩), moved f.din, fun j hj => h.lane_stream_dout hlen f.din hj⟩
  exact (h.lane_stream_dout hlen 0 hj).trans (by simp [lane])

/-! ### Host programs of stream commands -/

/-- A host access carried out in one step (R551). -/
theorem bring_access {a : Access} {s t : State} (h : exec a.instr { s with input := [] } = .next t) :
    bring (.access a) s = t := by
  unfold bring
  rw [step_cons rfl]
  exact congrArg (Result.state s) h

/-- The engine's turn with a command in flight (R575). -/
theorem bring_engine {s : State} {f : Inflight} (h : s.inflight = some f) :
    bring .engine s = (commandBody f { s with input := [] }).complete := by
  unfold bring
  rw [step_cons rfl]
  exact congrArg (Result.state s) (execEngineStep_some (s := { s with input := [] }) h)

/-- The row a write selects, by its slot (R300, R301). -/
theorem instr_of_write {addr : BitVec 8} {slot : BitVec 6} (h : selector true addr = writeSel slot) (d : Word) :
    Access.instr ⟨true, addr, d⟩ = decodeWrite slot d :=
  (congrArg (decodeBus · d) h).trans (decodeBus_writeSel slot d)

/-- A write of DIN (R555). -/
theorem bring_wr_din (d : Word) (s : State) : bring (wr .din d) s = { s with input := [], din := d } :=
  bring_access (congrArg (exec · { s with input := [] }) (instr_of_write (slot := 2) rfl d))

/-- A write of CTRL to an idle CORE issues the command (R556). -/
theorem bring_cmd {s : State} (idle : s.inflight = none) (op : BitVec 4) (len : BitVec 3) :
    bring (cmd op len) s = ({ s with input := [] } : State).issue (commandWord op len) := by
  have free : ({ s with input := [] } : State).busy = false := congrArg Option.isSome idle
  apply bring_access
  rw [instr_of_write (slot := 0) rfl]
  show execWrCtrl (commandWord op len) { s with input := [] } = _
  rw [execWrCtrl, free]
  rfl

/-- A stream command carried through by a host that polls: the procedure runs on the state with the command issued, and the
host reads `DOUT` (R710). -/
theorem transact_stream {s : State} (idle : s.inflight = none) (hc : s.configured = true) {op : BitVec 4} {len : BitVec 3}
    {d : Word} (hd : decodeCommand (commandWord op len) = .keystream len ∧ d = 0 ∨
      decodeCommand (commandWord op len) = .crypt len ∧ d = s.din) :
    let t := (({ s with input := [] } : State).issue (commandWord op len)).stream len.toNat d
    transact op len s = { t with inflight := none, rdata := t.dout, input := [] } := by
  intro t
  have engine : bring .engine (bring (cmd op len) s) = t.complete := by
    rw [bring_cmd idle, bring_engine rfl]
    exact congrArg State.complete (commandBody_stream hc hd)
  show bring (rd .dout) (bring .engine (bring (cmd op len) s)) = _
  rw [engine]
  exact bring_access rfl

/-- Byte `j` of a word (R11, R204). -/
theorem bytesLe_getElem (w : Word) {j : Nat} (hj : j < (bytesLe w).length) : (bytesLe w)[j] = lane w j := by
  match j, hj with
  | 0, _ | 1, _ | 2, _ | 3, _ => rfl

/-- A stream command carried through from a keystream position leaves the CORE idle at the position after it, and the host has
read the bytes between the two, exclusive-or the data (R464, R465). -/
theorem AtPosition.transact {p : Position} {s : State} (h : AtPosition p s) (idle : s.inflight = none) {op : BitVec 4}
    {len : BitVec 3} {d : Word} (hd : decodeCommand (commandWord op len) = .keystream len ∧ d = 0 ∨
      decodeCommand (commandWord op len) = .crypt len ∧ d = s.din) :
    AtPosition { p with total := p.total + len.toNat } (transact op len s) ∧ (transact op len s).inflight = none ∧
      output len.toNat (transact op len s) =
        List.zipWith (· ^^^ ·) ((bytesLe d).take len.toNat) (ksBytes p.key p.nonce p.start p.total len.toNat) := by
  have hlen : len.toNat ≤ 4 := decodeCommand_length (hd.imp And.left And.left)
  rw [transact_stream idle h.configured hd]
  have issued : AtPosition p (({ s with input := [] } : State).issue (commandWord op len)) := h.of_engine_eq rfl
  refine ⟨(issued.stream (by omega) d).of_engine_eq rfl, rfl, List.ext_getElem (by simp [output]) fun j hj _ => ?_⟩
  have hj : j < len.toNat := by simp [output] at hj; omega
  simp only [output, List.getElem_take, bytesLe_getElem, List.getElem_zipWith]
  rw [issued.lane_stream_dout hlen d hj]
  simp [ksBytes]

/-! ### The command words of a host program -/

/-- The word of `cmd ks n` decodes to KEYSTREAM `n` (R303, R311). -/
theorem decodeCommand_keystream : ∀ n : Fin 5,
    decodeCommand (commandWord 3 (BitVec.ofNat 3 n)) = .keystream (BitVec.ofNat 3 n) := by decide
/-- The word of `cmd crypt n` decodes to CRYPT `n` (R303, R311). -/
theorem decodeCommand_crypt : ∀ n : Fin 5,
    decodeCommand (commandWord 4 (BitVec.ofNat 3 n)) = .crypt (BitVec.ofNat 3 n) := by decide

/-- The length field of a stream command of at most four bytes (R304). -/
theorem len_toNat {n : Nat} (h : n ≤ 4) : (BitVec.ofNat 3 n).toNat = n := by
  rw [BitVec.toNat_ofNat]; omega

/-- Data with nothing in it (R452). -/
theorem zipWith_xor_zero {n : Nat} (hn : n ≤ 4) {t : List Byte} (ht : t.length = n) :
    List.zipWith (· ^^^ ·) ((bytesLe 0).take n) t = t := by
  apply List.ext_getElem (by simp; omega)
  intro j _ _
  simp [bytesLe_getElem, lane]

/-- The data bytes of a value packed for `DIN` (R106, R204). -/
theorem take_bytesLe_packLanes {chunk : List Byte} (h : chunk.length ≤ 4) :
    (bytesLe (packLanes chunk)).take chunk.length = chunk := by
  rw [packLanes, bytesLe_le32]
  match chunk, h with
  | [], _ | [_], _ | [_, _], _ | [_, _, _], _ | [_, _, _, _], _ => rfl

/-! ### Chunks -/

/-- KEYSTREAM commands read the keystream bytes at their position, one stretch after another (R465). -/
theorem AtPosition.keystreamProgram {p : Position} {s : State} (h : AtPosition p s) (idle : s.inflight = none)
    (ns : List (Fin 5)) :
    (keystreamProgram ns s).1 = ksBytes p.key p.nonce p.start p.total (ns.map Fin.val).sum := by
  induction ns generalizing p s with
  | nil => rfl
  | cons n ns ih =>
    have hn : n.val ≤ 4 := by omega
    obtain ⟨next, idle', out⟩ := h.transact idle (.inl ⟨decodeCommand_keystream n, rfl⟩)
    rw [len_toNat hn] at next out
    rw [zipWith_xor_zero hn (ksBytes_length ..)] at out
    rw [List.map_cons, List.sum_cons, ← ksBytes_append, ← out, ← ih next idle']
    rfl

/-- CRYPT commands read their data exclusive-or the keystream bytes at their position, one chunk after another (R465). -/
theorem AtPosition.cryptProgram {p : Position} {s : State} (h : AtPosition p s) (idle : s.inflight = none)
    (chunks : List (List Byte)) (short : ∀ chunk ∈ chunks, chunk.length ≤ 4) :
    (cryptProgram chunks s).1 =
      List.zipWith (· ^^^ ·) chunks.flatten (ksBytes p.key p.nonce p.start p.total chunks.flatten.length) := by
  induction chunks generalizing p s with
  | nil => rfl
  | cons chunk chunks ih =>
    obtain ⟨hn, short⟩ := List.forall_mem_cons.mp short
    have h' : AtPosition p { s with input := [], din := packLanes chunk } := h.of_engine_eq rfl
    obtain ⟨next, idle', out⟩ := h'.transact idle
      (.inr ⟨decodeCommand_crypt ⟨chunk.length, Nat.lt_succ_of_le hn⟩, rfl⟩)
    simp only [len_toNat hn] at next out
    rw [take_bytesLe_packLanes hn] at out
    rw [List.flatten_cons, List.length_append, ← ksBytes_append, List.zipWith_append (by simp), ← out,
      ← ih next idle' short, ← bring_wr_din]
    rfl

/-- Settles O55: each command goes on where the one before it stopped. -/
theorem chunkingDoesNotMatter : Obligations.ChunkingDoesNotMatter :=
  fun _ _ h idle => ⟨h.keystreamProgram idle, h.cryptProgram idle⟩

/-- Exclusive-or with the same bytes twice (R454). -/
theorem zipWith_xor_cancel {data ks : List Byte} (h : data.length = ks.length) :
    List.zipWith (· ^^^ ·) (List.zipWith (· ^^^ ·) data ks) ks = data := by
  apply List.ext_getElem (by simp [h])
  intro j _ _
  simp

/-- Settles O56: both hosts see their data exclusive-or the same keystream bytes. -/
theorem decryptionInvertsEncryption : Obligations.DecryptionInvertsEncryption := by
  intro a b p chunks chunks' ha hb ia ib short short' passed
  have sent := ha.cryptProgram ia chunks short
  have length : chunks'.flatten.length = chunks.flatten.length := by rw [passed, sent]; simp
  rw [hb.cryptProgram ib chunks' short', length, passed, sent, zipWith_xor_cancel (by simp)]

end Sys2Proof.Machine

/-! PROOFS of the family `42_control_commands.md`: the completions of NOP, INIT and SET_COUNTER (R501 to R508), the writers of the
configuration (R509), and random access by a seek (R511). -/

namespace Sys2Proof.Machine

/-! ### One control command -/

/-- Settles O10: the completion of NOP has an empty body. -/
theorem nopCompletesWithNoEffect : Obligations.NopCompletesWithNoEffect :=
  ⟨rfl, fun _ _ hf => completing_some hf fun _ s => s⟩

/-- Settles O11: INIT is its body and the completion, and each outcome of its checks is one equation of the body. -/
theorem initBuildsTheEngineOrFails : Obligations.InitBuildsTheEngineOrFails := by
  intro s f hf
  have init : exec .init s = .next (initBody f s).complete := completing_some hf initBody
  refine ⟨fun hk => ?_, fun hk hn => ?_, fun hk hn => ?_⟩
  · rw [init, initBody_key hk]; rfl
  · rw [init, initBody_nonce hk hn]; rfl
  · rw [init, initBody_ok hk hn]; rfl

/-- Settles O12: SET_COUNTER is its body and the completion; the body does not look at the old `C`. -/
theorem setCounterSeeksOrFails : Obligations.SetCounterSeeksOrFails := by
  intro s f hf
  have seek : exec .setCounter s = .next (setCounterBody f s).complete := completing_some hf setCounterBody
  refine ⟨fun hc => ?_, fun hc => ?_⟩
  · rw [seek, setCounterBody_not hc]; rfl
  · rw [seek, setCounterBody_ok hc]; rfl

/-! ### The writers of the configuration -/

/-- Settles O44: of the cases of a step only a `rst` edge and a successful INIT write `K`, `N` or CONFIGURED; a stream command's
procedure reads them (R450). -/
theorem configurationWrittenOnlyByInitAndReset : Obligations.ConfigurationWrittenOnlyByInitAndReset := by
  intro s t h
  cases step_cases h with
  | reset p hr => exact .inr (.inl ⟨hr, rfl, rfl, rfl⟩)
  | initCompletes f hf => exact .inr (.inr ⟨f, hf, rfl, rfl, rfl⟩)
  | streamCompletes f m d hf => exact .inl (by simp)
  | _ => exact .inl ⟨rfl, rfl, rfl⟩

/-! ### A seek -/

/-- A 64-bit register is put together from its halves (R203). -/
theorem halves_high_low (v : BitVec 64) : halves (high v) (low v) = v :=
  BitVec.extractLsb'_append_extractLsb'_eq_extractLsb' (x := v) rfl |>.trans BitVec.extractLsb'_eq_self

/-- A host's accesses, one list of them after another. -/
theorem bringAll_append (es es' : List Event) (s : State) : bringAll (es ++ es') s = bringAll es' (bringAll es s) :=
  List.foldl_append

/-- `loadctr c` stages the counter (R311, R565, R566). -/
theorem bringAll_loadctr (c : BitVec 64) (s : State) :
    bringAll (loadctrEvents c) s = { s with input := [], ctrStage := c } := by
  have low_written : bring (wr .ctrStageLo (low c)) s =
      { s with input := [], ctrStage := halves (high s.ctrStage) (low c) } :=
    bring_access (congrArg (exec · { s with input := [] }) (instr_of_write (slot := 6) rfl (low c)))
  have high_written (s : State) : bring (wr .ctrStageHi (high c)) s =
      { s with input := [], ctrStage := halves (high c) (low s.ctrStage) } :=
    bring_access (congrArg (exec · { s with input := [] }) (instr_of_write (slot := 7) rfl (high c)))
  show bring (wr .ctrStageHi (high c)) (bring (wr .ctrStageLo (low c)) s) = _
  rw [low_written, high_written, low_halves, halves_high_low]

/-- A read of STATUS writes the port's value alone (R208, R552). -/
theorem bring_rd_status (s : State) : bring (rd .status) s = { s with input := [], rdata := s.statusWord } :=
  bring_access rfl

/-- The reads of a host that polls write the port's value alone, however many there are (R208, R552). -/
theorem bringAll_rd_status (tries : Nat) {s : State} (h : s.input = []) :
    ∃ v, bringAll (List.replicate tries (rd .status)) s = s.read v := by
  induction tries generalizing s with
  | zero => exact ⟨s.rdata, rfl⟩
  | succ tries ih =>
    have first : bring (rd .status) s = s.read s.statusWord := by rw [bring_rd_status, ← h]; rfl
    obtain ⟨v, rest⟩ := ih (s := s.read s.statusWord) h
    refine ⟨v, ?_⟩
    rw [List.replicate_succ]
    show bringAll (List.replicate tries (rd .status)) (bring (rd .status) s) = _
    rw [first, rest]
    rfl

/-- `poll` carries the command in flight through, however often the host asks before that (R311, R575); the reads before the
completion and the one after it write the port's value. -/
theorem bringAll_poll (tries : Nat) {s : State} {f : Inflight} (h : s.input = []) (hf : s.inflight = some f) :
    ∃ v w, bringAll (pollEvents tries) s =
      { (commandBody f (s.read v)).complete with rdata := w, input := [] } := by
  obtain ⟨v, polled⟩ := bringAll_rd_status tries h
  have done : bring .engine (s.read v) = (commandBody f (s.read v)).complete := by
    rw [bring_engine (s := s.read v) hf, ← h]; rfl
  refine ⟨v, (commandBody f (s.read v)).complete.statusWord, ?_⟩
  rw [pollEvents, bringAll_append, polled]
  show bring (rd .status) (bring .engine (s.read v)) = _
  rw [done, bring_rd_status]

/-- What ENGINE_STEP does with SET_COUNTER on a configured engine (R506, R575). -/
theorem commandBody_setCounter {s : State} {f : Inflight} (hd : decodeCommand f.cmd = .setCounter)
    (hc : s.configured = true) : commandBody f s = { s with c := f.ctr, pend := [] } := by
  unfold commandBody
  rw [hd]
  exact setCounterBody_ok hc f

/-- `seek c` on an idle configured engine stages `c` and carries a SET_COUNTER through (R311, R506). -/
theorem bringAll_seek {s : State} (idle : s.inflight = none) (hc : s.configured = true) (c : BitVec 64) (tries : Nat) :
    ∃ w, bringAll (Line.seek c tries).events s =
      { s with ctrStage := c, c := c, pend := [], inflight := none, rdata := w, input := [] } := by
  show ∃ w, bringAll (loadctrEvents c ++ [cmd 2 0] ++ pollEvents tries) s = _
  rw [bringAll_append, bringAll_append, bringAll_loadctr]
  show ∃ w, bringAll (pollEvents tries) (bring (cmd 2 0) { s with input := [], ctrStage := c }) = _
  rw [bring_cmd (s := { s with input := [], ctrStage := c }) idle]
  obtain ⟨_, w, e⟩ :=
    bringAll_poll tries (s := ({ s with input := [], ctrStage := c } : State).issue (commandWord 2 0)) rfl rfl
  refine ⟨w, e.trans ?_⟩
  rw [commandBody_setCounter]
  · rfl
  · show decodeCommand (commandWord 2 0) = .setCounter
    decide
  · exact hc

/-- `seek c` leaves an idle configured engine idle, at byte 0 of the keystream that starts at `c`, under the same key and
nonce (R464, R511). -/
theorem seek_atPosition {s : State} (idle : s.inflight = none) (hc : s.configured = true) (c : BitVec 64) (tries : Nat) :
    AtPosition ⟨s.k, s.n, c, 0⟩ (bringAll (Line.seek c tries).events s) ∧
      (bringAll (Line.seek c tries).events s).inflight = none := by
  obtain ⟨_, e⟩ := bringAll_seek idle hc c tries
  rw [e]
  exact ⟨.of_pend_nil hc rfl rfl rfl rfl, rfl⟩

/-- A successful INIT leaves the engine idle, at byte 0 of the keystream of its copies (R464, R502). -/
theorem init_atPosition {u v : State} {f : Inflight} (hf : u.inflight = some f) (hk : f.kmask = 0xFF) (hn : f.nmask = 0x3)
    (h : exec .init u = .next v) : AtPosition ⟨f.key, f.nonce, f.ctr, 0⟩ v ∧ v.inflight = none := by
  obtain ⟨_, _, built⟩ := initBuildsTheEngineOrFails u f hf
  obtain rfl := Host.Outcome.next.inj ((built hk hn).symm.trans h)
  exact ⟨.of_pend_nil rfl rfl rfl rfl rfl, rfl⟩

/-- Settles O57: the seek and the fresh INIT both leave an idle engine at byte 0 of the same keystream. -/
theorem seekGivesRandomAccess : Obligations.SeekGivesRandomAccess := by
  intro s c tries ns hc idle t
  obtain ⟨sought, ht⟩ : AtPosition ⟨s.k, s.n, c, 0⟩ t ∧ t.inflight = none := seek_atPosition idle hc c tries
  refine ⟨sought.keystreamProgram ht ns, ?_⟩
  rintro u v f hf hk hn key nonce rfl h
  obtain ⟨fresh, hv⟩ := init_atPosition hf hk hn h
  rw [key, nonce] at fresh
  exact (fresh.keystreamProgram hv ns).trans (sought.keystreamProgram ht ns).symm

end Sys2Proof.Machine

/-! PROOFS of the family `43_register_access.md`: the value of each read and the effect of each write (R552 to R572), what no
access can do to the engine (R573, R574), and the row a step runs (R551, R575). -/

namespace Sys2Proof.Machine

/-! ### Reads -/

/-- Settles O1: each row's meaning is that read. -/
theorem readsReturnTheNamedRegister : Obligations.ReadsReturnTheNamedRegister :=
  fun _ => ⟨rfl, rfl, rfl, rfl, rfl, rfl, fun _ => rfl⟩

/-- Settles O2: each row's meaning is a read of the constant 0. -/
theorem writeOnlyAndUnmappedSlotsReadZero : Obligations.WriteOnlyAndUnmappedSlotsReadZero :=
  fun _ => ⟨rfl, fun _ => rfl, fun _ => rfl⟩

/-! ### STATUS -/

/-- The STATUS word over the sum of its fields' widths (R124), the form that the library's laws of `++` speak of. -/
def State.statusFields (s : State) : BitVec (6 + 2 + 8 + 2 + 6 + 1 + 3 + 1 + 1 + 1 + 1) :=
  0#6 ++ s.nonceMask ++ s.keyMask ++ 0#2 ++ s.level ++ 0#1 ++ errBits s.errCode ++ BitVec.ofBool s.err ++
    BitVec.ofBool s.wrapped ++ BitVec.ofBool s.configured ++ BitVec.ofBool s.busy

theorem statusWord_getLsbD (s : State) (i : Nat) : s.statusWord.getLsbD i = s.statusFields.getLsbD i := rfl
theorem statusWord_extractLsb' (s : State) (i n : Nat) :
    s.statusWord.extractLsb' i n = s.statusFields.extractLsb' i n := rfl

/-- `STATUS.LEVEL` is the length of `PEND` whenever that fits its six bits (R124, R463). -/
theorem State.level_toNat {s : State} (h : s.pend.length ≤ 63) : s.level.toNat = s.pend.length :=
  (BitVec.toNat_ofNat ..).trans (Nat.mod_eq_of_lt (Nat.lt_succ_of_le h))

/-- `STATUS.ERR` is 1 exactly when an error is recorded (R124). -/
theorem State.err_eq_decide (s : State) : s.err = decide (s.errCode ≠ .none) := by
  unfold State.err
  cases s.errCode <;> rfl

/-- Settles O3: a field is found by leaving out the fields below it. -/
theorem statusReadShowsEveryField : Obligations.StatusReadShowsEveryField := by
  intro s
  refine ⟨s.statusWord, rfl, ?_⟩
  simp only [statusWord_getLsbD, statusWord_extractLsb', State.statusFields, BitVec.getLsbD_append,
    BitVec.extractLsb'_append_eq_of_le, BitVec.extractLsb'_append_eq_right, Nat.reduceLeDiff, Nat.reduceSub, Nat.reduceLT,
    if_true, if_false, BitVec.extractLsb'_eq_self, BitVec.getLsbD_ofBool, decide_true, Bool.true_and]
  exact ⟨rfl, trivial, trivial, s.err_eq_decide, trivial, rfl, rfl, State.level_toNat, rfl, trivial, trivial, rfl⟩

/-! ### Writes -/

/-- Settles O4: clearing a bit that is written with 1 is a choice between 0 and the old value. -/
theorem statusWriteClearsTheStickyFields : Obligations.StatusWriteClearsTheStickyFields := by
  intro d s
  have wrapped : (s.wrapped && !d.getLsbD 2) = if d.getLsbD 2 then false else s.wrapped := by
    cases d.getLsbD 2 <;> simp
  rw [← wrapped]
  rfl

/-- Settles O5: a half of CTR_STAGE is written by putting the register together from that value and its other half. -/
theorem dataAndCounterStagingWrites : Obligations.DataAndCounterStagingWrites :=
  fun _ _ => ⟨rfl, ⟨_, rfl, low_halves .., high_halves ..⟩, ⟨_, rfl, high_halves .., low_halves ..⟩⟩

/-- A write of one staging word and its mask bit, word by word and bit by bit (R101 to R104, R567, R569). -/
theorem staged_write {m : Nat} (words : Vector Word m) (mask : BitVec m) (i : Fin m) (d : Word) :
    (words.set i d)[i] = d ∧ (setBit mask i).getLsbD i = true ∧
      ∀ j : Fin m, j ≠ i → (words.set i d)[j] = words[j] ∧ (setBit mask i).getLsbD j = mask.getLsbD j := by
  refine ⟨Vector.getElem_set_self i.isLt, ?_, fun j hj => ⟨?_, ?_⟩⟩
  · rw [setBit_getLsbD _ _ _ i.isLt, decide_eq_true rfl, Bool.or_true]
  · exact Vector.getElem_set_ne i.isLt j.isLt (Fin.val_ne_of_ne hj).symm
  · rw [setBit_getLsbD _ _ _ j.isLt, decide_eq_false (Fin.val_ne_of_ne hj), Bool.or_false]

/-- Settles O6, by what a write of one staging word does. -/
theorem keyWriteStoresItsWordAndSetsItsMaskBit : Obligations.KeyWriteStoresItsWordAndSetsItsMaskBit := by
  intro k d s
  obtain ⟨word, bit, others⟩ := staged_write s.keyStage s.keyMask k d
  exact ⟨_, rfl, word, bit, others, rfl⟩

/-- Settles O7, by what a write of one staging word does. -/
theorem nonceWriteStoresItsWordAndSetsItsMaskBit : Obligations.NonceWriteStoresItsWordAndSetsItsMaskBit := by
  intro n d s
  obtain ⟨word, bit, others⟩ := staged_write s.nonceStage s.nonceMask n d
  exact ⟨_, rfl, word, bit, others, rfl⟩

/-- Settles O8: each row's meaning is the state it finds. -/
theorem ignoredWritesChangeNothing : Obligations.IgnoredWritesChangeNothing :=
  fun _ _ => ⟨rfl, fun _ => rfl, fun _ => rfl⟩

/-! ### Accesses and the engine -/

/-- Settles O48, by the cases of an access: only an issue writes the command in flight, and it finds none. -/
theorem accessesLeaveTheEngine : Obligations.AccessesLeaveTheEngine := by
  intro a s
  rcases exec_decodeBus_cases (selector a.we a.addr) a.wdata s with
    ⟨_, e⟩ | e | ⟨_, _, e⟩ | ⟨_, idle, e⟩ | ⟨_, e⟩ | ⟨_, e⟩ | ⟨_, _, e⟩ | ⟨_, _, e⟩ | ⟨_, _, e⟩
  case inr.inr.inr.inl =>
    exact ⟨_, e, rfl, rfl, rfl, rfl, rfl, rfl, fun busy => by simp [State.busy, idle] at busy⟩
  all_goals exact ⟨_, e, rfl, rfl, rfl, rfl, rfl, rfl, fun _ => rfl⟩

/-- The registers a host writes operands to (R101 to R106). -/
structure Staging where
  keyStage : KeyWords
  keyMask : BitVec 8
  nonceStage : NonceWords
  nonceMask : BitVec 2
  ctrStage : BitVec 64
  din : Word

namespace State

/-- The operand registers of a state. -/
def staging (s : State) : Staging := ⟨s.keyStage, s.keyMask, s.nonceStage, s.nonceMask, s.ctrStage, s.din⟩

/-- A state with other operand registers. -/
def withStaging (g : Staging) (s : State) : State :=
  { s with
    keyStage := g.keyStage, keyMask := g.keyMask, nonceStage := g.nonceStage, nonceMask := g.nonceMask
    ctrStage := g.ctrStage, din := g.din }

end State

/-- A staging write is a function of the operand registers (R574). -/
theorem exec_of_isStagingWrite {i : Instr} (h : i.isStagingWrite = true) :
    ∃ write : Staging → Staging, ∀ s, exec i s = .next (s.withStaging (write s.staging)) := by
  cases i with
  | wrDin d => exact ⟨fun g => { g with din := d }, fun _ => rfl⟩
  | wrCtrstgLo d => exact ⟨fun g => { g with ctrStage := halves (high g.ctrStage) d }, fun _ => rfl⟩
  | wrCtrstgHi d => exact ⟨fun g => { g with ctrStage := halves d (low g.ctrStage) }, fun _ => rfl⟩
  | wrKey k d =>
    exact ⟨fun g => { g with keyStage := g.keyStage.set k d, keyMask := setBit g.keyMask k }, fun _ => rfl⟩
  | wrNonce n d =>
    exact ⟨fun g => { g with nonceStage := g.nonceStage.set n d, nonceMask := setBit g.nonceMask n }, fun _ => rfl⟩
  | _ => exact absurd h Bool.false_ne_true

/-! The body of a command works on its record and leaves the operand registers alone (R574): it gives the same result beside
any values of them. -/

section withStaging
variable (g : Staging) (s : State)

theorem State.refill_withStaging (n : Nat) : (s.withStaging g).refill n = (s.refill n).withStaging g := by
  unfold State.refill
  rw [apply_ite (State.withStaging g)]
  rfl

theorem State.stream_withStaging (n : Nat) (d : Word) : (s.withStaging g).stream n d = (s.stream n d).withStaging g := by
  unfold State.stream
  rw [State.refill_withStaging]
  rfl

theorem State.streamCommand_withStaging (len : BitVec 3) (d : Word) :
    (s.withStaging g).streamCommand len d = (s.streamCommand len d).withStaging g := by
  unfold State.streamCommand
  rw [State.stream_withStaging, apply_ite (State.withStaging g), apply_ite (State.withStaging g)]
  rfl

theorem initBody_withStaging (f : Inflight) : initBody f (s.withStaging g) = (initBody f s).withStaging g := by
  unfold initBody
  rw [apply_ite (State.withStaging g), apply_ite (State.withStaging g)]
  rfl

theorem setCounterBody_withStaging (f : Inflight) :
    setCounterBody f (s.withStaging g) = (setCounterBody f s).withStaging g := by
  unfold setCounterBody
  rw [apply_ite (State.withStaging g)]
  rfl

theorem commandBody_withStaging (f : Inflight) : commandBody f (s.withStaging g) = (commandBody f s).withStaging g := by
  unfold commandBody
  cases decodeCommand f.cmd with
  | illegal code => rfl
  | nop => rfl
  | init => exact initBody_withStaging g s f
  | setCounter => exact setCounterBody_withStaging g s f
  | keystream n => exact s.streamCommand_withStaging g n 0
  | crypt n => exact s.streamCommand_withStaging g n f.din

end withStaging

/-- A command writes no operand register (R574): beside its own values of them, its body gives its own result. -/
theorem commandBody_staging (f : Inflight) (s : State) : (commandBody f s).staging = s.staging := by
  have same : commandBody f s = (commandBody f s).withStaging s.staging := commandBody_withStaging s.staging s f
  rw [same]
  rfl

/-- Settles O49: the write is a function of the operand registers, and the command's body neither reads nor writes these. -/
theorem stagingWritesCommuteWithCompletion : Obligations.StagingWritesCommuteWithCompletion := by
  intro i s hi hb
  obtain ⟨write, exec_i⟩ := exec_of_isStagingWrite hi
  obtain ⟨f, hf⟩ := s.busy_iff.mp hb
  have kept : (commandBody f s).complete.staging = s.staging := commandBody_staging f s
  refine ⟨_, _, _, exec_i s, execEngineStep_some (f := f) hf, execEngineStep_some hf, ?_⟩
  rw [exec_i, kept, commandBody_withStaging]
  rfl

/-! ### The row a step runs -/

/-- The engine's turn runs ENGINE_STEP on the events after it (R211, R722). -/
theorem step_of_engine {s : State} {rest : List Event} (h : s.input = .engine :: rest ∨ s.input = [] ∧ rest = []) :
    step s = execEngineStep { s with input := rest } := by
  rcases h with h | ⟨h, rfl⟩
  · exact step_cons h
  · rw [step_nil h, ← h]

/-- The row of a command word and R308's decoding of it, side by side: they differ in a `LEN` of 5..7 alone, which the KEYSTREAM
and CRYPT rows hold (R308, log 9). -/
theorem decodeRow_cases (w : Word) :
    (decodeRow w = .illegal w ∧ decodeCommand w = .illegal .illegalCommand) ∨
    (decodeRow w = .nop ∧ decodeCommand w = .nop) ∨
    (decodeRow w = .init ∧ decodeCommand w = .init) ∨
    (decodeRow w = .setCounter ∧ decodeCommand w = .setCounter) ∨
    ∃ n, decodeRow w = .keystream n ∧ decodeCommand w = .keystream n ∨
      decodeRow w = .crypt n ∧ decodeCommand w = .crypt n ∨
      (decodeRow w = .keystream n ∨ decodeRow w = .crypt n) ∧ 4 < n.toNat ∧ decodeCommand w = .illegal .illegalLength := by
  induction w using word_cases with
  | reserved w h => exact .inl (decode_reserved h).symm
  | fields op len => revert op len; decide +kernel

/-- A KEYSTREAM or CRYPT row with a `LEN` of 5..7 completes with ILLEGAL_LENGTH (R608). -/
theorem exec_stream_of_lt {s : State} {f : Inflight} {n : BitVec 3} {i : Instr} (hf : s.inflight = some f)
    (hi : i = .keystream n ∨ i = .crypt n) (hn : 4 < n.toNat) : exec i s = .next (s.raise .illegalLength).complete := by
  have raises (d : Word) : s.streamCommand n d = s.raise .illegalLength := if_pos hn
  rcases hi with rfl | rfl
  · rw [← raises 0]; exact completing_some hf fun _ s => s.streamCommand n 0
  · rw [← raises f.din]; exact completing_some hf fun f s => s.streamCommand n f.din

/-- ENGINE_STEP is the row of the command in flight (R575): a `LEN` that R308's decoder turns away fails in its row. -/
theorem execEngineStep_eq_row {s : State} {f : Inflight} (hf : s.inflight = some f) :
    execEngineStep s = exec (decodeRow f.cmd) s := by
  rw [execEngineStep_some hf]
  unfold commandBody
  symm
  rcases decodeRow_cases f.cmd with
    ⟨row, e⟩ | ⟨row, e⟩ | ⟨row, e⟩ | ⟨row, e⟩ | ⟨n, ⟨row, e⟩ | ⟨row, e⟩ | ⟨row, long, e⟩⟩ <;> rw [e]
  · rw [row]; exact completing_some hf fun _ s => s.raise .illegalCommand
  · rw [row]; exact completing_some hf fun _ s => s
  · rw [row]; exact completing_some hf initBody
  · rw [row]; exact completing_some hf setCounterBody
  · rw [row]; exact completing_some hf fun _ s => s.streamCommand n 0
  · rw [row]; exact completing_some hf fun f s => s.streamCommand n f.din
  · exact exec_stream_of_lt hf row long

/-- Settles O24: a step runs its event on the state with the events after it still to come. -/
theorem stepRunsTheDecodedInstruction : Obligations.StepRunsTheDecodedInstruction := by
  intro s rest
  refine ⟨fun a h => step_cons h, fun h => ?_, fun h => step_cons h⟩
  have engine := step_of_engine h
  exact ⟨engine, fun f hf => engine.trans (execEngineStep_eq_row (s := { s with input := rest }) hf),
    fun hf => engine.trans (execEngineStep_none hf)⟩

end Sys2Proof.Machine

/-! PROOFS of the family `60_exceptions.md`: the errors of a command (R600 to R610), what an access can reveal (R617), and several
COREs (R616). -/

namespace Sys2Proof.Machine

/-! ### The first error of a command -/

/-- The field `OP` of a command word (R302). -/
abbrev opOf (w : Word) : Nat := (w.extractLsb' 0 4).toNat

/-- The field `LEN` of a command word (R302). -/
abbrev lenOf (w : Word) : Nat := (w.extractLsb' 4 3).toNat

/-- The words that complete with ILLEGAL_COMMAND (R607). -/
abbrev IllegalCommand (w : Word) : Prop := w.extractLsb' 7 25 ≠ 0 ∨ 5 ≤ opOf w ∨ opOf w ≤ 2 ∧ lenOf w ≠ 0

/-- The `OP` and `LEN` of the words that complete with ILLEGAL_LENGTH (R608). -/
abbrev IllegalLength (w : Word) : Prop := (opOf w = 3 ∨ opOf w = 4) ∧ 5 ≤ lenOf w

/-- R308's decoder raises the errors of encoding in the order of R610. -/
theorem decodeCommand_of_illegalCommand {w : Word} : IllegalCommand w → decodeCommand w = .illegal .illegalCommand := by
  induction w using word_cases with
  | reserved w h => exact fun _ => (decode_reserved h).1
  | fields op len => revert op len; decide +kernel
@[inherit_doc decodeCommand_of_illegalCommand]
theorem decodeCommand_of_illegalLength {w : Word} : ¬ IllegalCommand w → IllegalLength w →
    decodeCommand w = .illegal .illegalLength := by
  induction w using word_cases with
  | reserved w h => exact fun legal => absurd (.inl h) legal
  | fields op len => revert op len; decide +kernel

/-- A word with no error of encoding is the operation its `OP` names (R303, R308). -/
theorem decodeCommand_of_legal {w : Word} : ¬ IllegalCommand w → ¬ IllegalLength w →
    opOf w = 0 ∧ decodeCommand w = .nop ∨ opOf w = 1 ∧ decodeCommand w = .init ∨
    opOf w = 2 ∧ decodeCommand w = .setCounter ∨ opOf w = 3 ∧ decodeCommand w = .keystream (w.extractLsb' 4 3) ∨
    opOf w = 4 ∧ decodeCommand w = .crypt (w.extractLsb' 4 3) := by
  induction w using word_cases with
  | reserved w h => exact fun legal => absurd (.inl h) legal
  | fields op len => revert op len; decide +kernel

section legal
variable {f : Inflight} (legal : ¬ IllegalCommand f.cmd) (short : ¬ IllegalLength f.cmd) (s : State)
include legal short

/-- What a command with no error of encoding does before `BUSY <- 0`, by its `OP` (R303, R575). -/
theorem commandBody_cases_op :
    opOf f.cmd = 0 ∧ commandBody f s = s ∨ opOf f.cmd = 1 ∧ commandBody f s = initBody f s ∨
    opOf f.cmd = 2 ∧ commandBody f s = setCounterBody f s ∨
    (opOf f.cmd = 3 ∨ opOf f.cmd = 4) ∧ ∃ len d, len.toNat ≤ 4 ∧ commandBody f s = s.streamCommand len d := by
  unfold commandBody
  rcases decodeCommand_of_legal legal short with ⟨op, e⟩ | ⟨op, e⟩ | ⟨op, e⟩ | ⟨op, e⟩ | ⟨op, e⟩ <;> rw [e]
  · exact .inl ⟨op, rfl⟩
  · exact .inr (.inl ⟨op, rfl⟩)
  · exact .inr (.inr (.inl ⟨op, rfl⟩))
  · exact .inr (.inr (.inr ⟨.inl op, _, _, decodeCommand_length (.inl e), rfl⟩))
  · exact .inr (.inr (.inr ⟨.inr op, _, _, decodeCommand_length (.inr e), rfl⟩))

/-- `OP` 1 is INIT (R303). -/
theorem commandBody_of_op_one (op : opOf f.cmd = 1) : commandBody f s = initBody f s := by
  rcases commandBody_cases_op legal short s with ⟨_, _⟩ | ⟨_, e⟩ | ⟨_, _⟩ | ⟨_, _⟩
  case inr.inl => exact e
  all_goals omega

/-- SET_COUNTER, KEYSTREAM and CRYPT, `OP` 2 to 4, fail on an unconfigured engine (R606). -/
theorem commandBody_not_configured (op : opOf f.cmd = 2 ∨ opOf f.cmd = 3 ∨ opOf f.cmd = 4) (hc : s.configured = false) :
    commandBody f s = s.raise .notConfigured := by
  rcases commandBody_cases_op legal short s with ⟨_, _⟩ | ⟨_, _⟩ | ⟨_, e⟩ | ⟨_, len, d, hlen, e⟩
  · omega
  · omega
  · rw [e, setCounterBody_not hc]
  · rw [e]
    rcases s.streamCommand_cases len d with ⟨_, _⟩ | ⟨_, _, e⟩ | ⟨_, h, _⟩
    · omega
    · exact e
    · exact absurd (hc.symm.trans h) Bool.false_ne_true

end legal

/-- ENGINE_STEP on a command whose body fails (R575, R602). -/
theorem engineStep_of_raise {s : State} {f : Inflight} (hf : s.inflight = some f) {code : ErrCode}
    (h : commandBody f s = s.raise code) : exec .engineStep s = .next { s with errCode := code, inflight := none } :=
  (execEngineStep_some hf).trans (congrArg (Host.Outcome.next ∘ State.complete) h)

/-- Settles O17: the errors of encoding are found by R308's decoder, the others by the body of the operation `OP` names, and
each body looks for its own in the order of R610. -/
theorem engineStepReportsTheFirstError : Obligations.EngineStepReportsTheFirstError := by
  intro s f hf op len illegalCommand illegalLength notConfigured badKey badNonce fails
  refine ⟨fun bad => ?_, fun legal bad => ?_, fun legal short ⟨hop, hc⟩ => ?_, fun legal short _ ⟨hop, hk⟩ => ?_,
    fun legal short _ goodKey ⟨hop, hn⟩ => ?_, fun legal short configured goodKey goodNonce => ?_⟩
  · exact engineStep_of_raise hf (by rw [commandBody, decodeCommand_of_illegalCommand bad])
  · exact engineStep_of_raise hf (by rw [commandBody, decodeCommand_of_illegalLength legal bad])
  · exact engineStep_of_raise hf (commandBody_not_configured legal short s hop hc)
  · exact engineStep_of_raise hf ((commandBody_of_op_one legal short s hop).trans (initBody_key hk s))
  · have hk : f.kmask = 0xFF := not_not.mp fun hk => goodKey ⟨hop, hk⟩
    exact engineStep_of_raise hf ((commandBody_of_op_one legal short s hop).trans (initBody_nonce hk hn s))
  · refine ⟨_, execEngineStep_some hf, rfl, ?_⟩
    show (commandBody f s).errCode = s.errCode
    rcases commandBody_cases_op legal short s with ⟨_, e⟩ | ⟨hop, e⟩ | ⟨hop, e⟩ | ⟨hop, len, d, hlen, e⟩ <;> rw [e]
    · rw [initBody_ok (not_not.mp fun hk => goodKey ⟨hop, hk⟩) (not_not.mp fun hn => goodNonce ⟨hop, hn⟩)]
    · rw [setCounterBody_ok (Bool.eq_true_of_not_eq_false fun hc => configured ⟨.inl hop, hc⟩)]
    · rw [State.streamCommand_ok (Bool.eq_true_of_not_eq_false fun hc => configured ⟨.inr hop, hc⟩) hlen,
        State.stream_errCode]

/-- Settles O13: the ILLEGAL row is the completion of an error, whatever the word. -/
theorem illegalRowRecordsIllegalCommand : Obligations.IllegalRowRecordsIllegalCommand :=
  fun _ _ _ hf => completing_some hf fun _ s => s.raise .illegalCommand

/-- A write of CTRL while idle (R556). -/
theorem exec_wrCtrl_idle {s : State} (idle : s.inflight = none) (w : Word) : exec (.wrCtrl w) s = .next (s.issue w) :=
  if_neg (by simp [State.busy, idle])

/-- A write of CTRL while busy (R603). -/
theorem exec_wrCtrl_busy {s : State} (busy : s.busy = true) (w : Word) :
    exec (.wrCtrl w) s = .next (s.raise .busyOverrun) := if_pos busy

/-- Settles O9: BUSY decides between issuing the word and dropping it. -/
theorem commandIssueOrOverrun : Obligations.CommandIssueOrOverrun :=
  fun w s => ⟨fun idle => exec_wrCtrl_idle idle w, fun f hf => exec_wrCtrl_busy (s.busy_iff.mpr ⟨f, hf⟩) w⟩

/-! ### Nothing stops the CORE -/

/-- A completion has a next state, with a command in flight or without (R575). -/
theorem completing_next (s : State) (body : Inflight → State → State) : ∃ t, completing s body = .next t := by
  cases hf : s.inflight with
  | none => exact ⟨_, completing_none hf body⟩
  | some f => exact ⟨_, completing_some hf body⟩

/-- No operation faults or refuses (R307, R550, R600). -/
theorem exec_next (i : Instr) (s : State) : ∃ t, exec i s = .next t := by
  cases i with
  | wrCtrl w =>
    cases hf : s.inflight with
    | none => exact ⟨_, exec_wrCtrl_idle hf w⟩
    | some f => exact ⟨_, exec_wrCtrl_busy (s.busy_iff.mpr ⟨f, hf⟩) w⟩
  | nop => exact completing_next s fun _ s => s
  | init => exact completing_next s initBody
  | setCounter => exact completing_next s setCounterBody
  | keystream n => exact completing_next s fun _ s => s.streamCommand n 0
  | crypt n => exact completing_next s fun f s => s.streamCommand n f.din
  | illegal _ => exact completing_next s fun _ s => s.raise .illegalCommand
  | engineStep =>
    obtain ⟨t, ht⟩ := completing_next s commandBody
    exact ⟨t, (execEngineStep_eq_completing s).trans ht⟩
  | _ => exact ⟨_, rfl⟩

/-- No event does (R550, R618, R700). -/
theorem execEvent_next (e : Event) (s : State) : ∃ t, execEvent e s = .next t := by
  cases e with
  | access a => exact exec_next a.instr s
  | engine => exact exec_next .engineStep s
  | reset _ | idle => exact ⟨_, rfl⟩

/-- No step does: it is one event (R211, R722). -/
theorem step_next (s : State) : ∃ t, step s = .next t := by
  cases h : s.input with
  | nil => rw [step_nil h]; exact execEvent_next .engine s
  | cons e rest => rw [step_cons h]; exact execEvent_next e _

/-- Settles O51: every meaning ends in a next state, and a step runs one meaning, a `rst` edge or nothing. -/
theorem nothingStopsTheCore : Obligations.NothingStopsTheCore := ⟨exec_next, step_next⟩

/-! ### What an access reveals -/

namespace State

/-- Nothing is left to hide of what is visible (R617). -/
theorem visible_visible (s : State) : s.visible.visible = s.visible := by
  simp [visible, Function.comp_def]

/-- STATUS shows `PEND` by its length and the command in flight by BUSY alone (R124). -/
theorem visible_busy (s : State) : s.visible.busy = s.busy := Option.isSome_map
@[inherit_doc visible_busy]
theorem visible_statusWord (s : State) : s.visible.statusWord = s.statusWord := by
  have level : s.visible.level = s.level := congrArg (BitVec.ofNat 6) List.length_replicate
  unfold statusWord
  rw [level, visible_busy]
  rfl

end State

/-- An operation does the same to a state and to what is visible of it, but for what is not visible. -/
def SeesOnlyVisible (i : Instr) : Prop :=
  ∀ s : State, ∃ t u, exec i s = .next t ∧ exec i s.visible = .next u ∧ u.visible = t.visible

namespace SeesOnlyVisible

/-- An operation that gives what is visible of its result when it starts from what is visible. -/
theorem of_commutes {i : Instr} (h : ∀ s, ∃ t, exec i s = .next t ∧ exec i s.visible = .next t.visible) :
    SeesOnlyVisible i := by
  intro s
  obtain ⟨t, ht, hu⟩ := h s
  exact ⟨t, _, ht, hu, t.visible_visible⟩

/-- The copy of the staged key that an issue makes is not visible either (R556, R568). -/
theorem wrCtrl (w : Word) : SeesOnlyVisible (.wrCtrl w) := by
  refine of_commutes fun s => ?_
  cases hf : s.inflight with
  | none => exact ⟨_, exec_wrCtrl_idle hf w, exec_wrCtrl_idle (congrArg (Option.map _) hf) w⟩
  | some f =>
    have busy : s.busy = true := s.busy_iff.mpr ⟨f, hf⟩
    exact ⟨_, exec_wrCtrl_busy busy w, exec_wrCtrl_busy (s.visible_busy.trans busy) w⟩

/-- A read answers from what is visible: no row reads a staged key word, `K`, `N`, the bytes of `PEND` or the datapath (R568,
R617). -/
theorem of_isRead {i : Instr} (h : i.isRead = true) : SeesOnlyVisible i := by
  cases i with
  | rdStatus =>
    exact of_commutes fun s =>
      ⟨_, rfl, congrArg (fun v => Host.Outcome.next (s.visible.read v)) s.visible_statusWord⟩
  | rdCtrl | rdDin | rdDout | rdCtrLo | rdCtrHi | rdCtrstgLo | rdCtrstgHi | rdKey _ | rdNonce _ | rdUnmapped _ =>
    exact of_commutes fun _ => ⟨_, rfl, rfl⟩
  | _ => exact absurd h Bool.false_ne_true

/-- A plain write works on what is visible, but for a key word, which goes to `KEY_STAGE` (R568). -/
theorem of_isPlainWrite {i : Instr} (h : i.isPlainWrite = true) : SeesOnlyVisible i := by
  cases i with
  | wrStatus _ | wrDin _ | wrDout _ | wrCtr _ _ | wrCtrstgLo _ | wrCtrstgHi _ | wrNonce _ _ | wrUnmapped _ _ =>
    exact of_commutes fun _ => ⟨_, rfl, rfl⟩
  | wrKey k d =>
    exact fun s => ⟨_, _, rfl, rfl, congrArg (fun v => { v with keyMask := setBit s.keyMask k }) s.visible_visible⟩
  | _ => exact absurd h Bool.false_ne_true

end SeesOnlyVisible

/-- Every selector names the write of CTRL, a read or a plain write (R301). -/
theorem decodeBus_row (sel : BitVec 7) (d : Word) :
    decodeBus sel d = .wrCtrl d ∨ (decodeBus sel d).isRead = true ∨ (decodeBus sel d).isPlainWrite = true := by
  unfold decodeBus
  split
  · unfold decodeWrite
    split
    · exact .inl rfl
    all_goals exact .inr (.inr rfl)
  · unfold decodeRead
    split <;> exact .inr (.inl rfl)

/-- Settles O58: what an access does to either state is what it does to what is visible of both. -/
theorem accessesRevealNoSecret : Obligations.AccessesRevealNoSecret := by
  intro s s' a same
  have sees : SeesOnlyVisible (decodeBus (selector a.we a.addr) a.wdata) := by
    rcases decodeBus_row (selector a.we a.addr) a.wdata with row | row | row
    · exact row ▸ .wrCtrl a.wdata
    · exact .of_isRead row
    · exact .of_isPlainWrite row
  obtain ⟨t, u, ht, hu, e⟩ := sees s
  obtain ⟨t', u', ht', hu', e'⟩ := sees s'
  obtain rfl : u = u' := Host.Outcome.next.inj (hu.symm.trans ((congrArg (exec _) same).trans hu'))
  have visible : t.visible = t'.visible := e.symm.trans e'
  have rdata : t.visible.rdata = t'.visible.rdata := congrArg State.rdata visible
  exact ⟨t, t', ht, ht', rdata, visible⟩

/-! ### Several COREs -/

/-- A step of CORE `i` of a platform is a step of its state (R616). -/
theorem Platform.step_of_next {i : Nat} {p : Platform} {s t : State} (hs : p[i]? = some s) (ht : Machine.step s = .next t) :
    Platform.step i p = .next (p.set i t) := by
  simp only [Platform.step, hs, ht]

/-- Settles O60: the list of states is written at `i` alone, or not at all when there is no CORE `i`. -/
theorem coresShareNothing : Obligations.CoresShareNothing := by
  refine ⟨fun i p s t => Platform.step_of_next, fun i p q hq => ?_⟩
  cases hs : p[i]? with
  | none =>
    obtain rfl : p = q := by simpa [Platform.step, hs] using hq
    exact ⟨rfl, fun _ _ => rfl, fun _ h => nomatch h⟩
  | some s =>
    obtain ⟨t, ht⟩ := step_next s
    obtain rfl := Host.Outcome.next.inj ((Platform.step_of_next hs ht).symm.trans hq)
    refine ⟨List.length_set, fun j hj => List.getElem?_set_ne hj.symm, ?_⟩
    rintro _ ⟨⟩
    exact ⟨t, ht, List.getElem?_set_self (List.getElem?_eq_some_iff.mp hs).1⟩

end Sys2Proof.Machine

/-! PROOFS of the family `70_reset_and_hazards.md`: a `rst` edge and what it leaves (R700 to R703), the end of a command in
flight (R722), and the latency of one (R720, R721). -/

namespace Sys2Proof.Machine

/-! ### The end of a command in flight -/

/-- A step takes the next event and brings no other (R550; log 1): with none left, there is still none. -/
theorem step_input {s t : State} (h : step s = .next t) : t.input = s.input.tail := by
  cases step_cases h with
  | streamCompletes f m d _ => exact State.stream_input m d s.popped
  | _ => rfl

/-- After the engine's turn no command is in flight: it completed one, or found none (R575). -/
theorem execEngineStep_idle {s t : State} (h : execEngineStep s = .next t) : t.busy = false := by
  rcases execEngineStep_cases h with ⟨idle, rfl⟩ | ⟨f, _, rfl⟩
  · exact congrArg Option.isSome idle
  · exact State.complete_busy _

/-- A run begins with a step. -/
theorem run_succ_of_next {M : Host.Core} {s t : M.State} (h : M.step s = .next t) (m : Nat) :
    M.run (m + 1) s = M.run m t := by
  rw [Host.Core.run, h]

/-- The events still to come, one step each, and then the engine's turn: `BUSY` is 0 whatever the events were (R722). -/
theorem run_past_input_idle (s : State) :
    ∃ t : State, core.run (s.input.length + 1) s = .next t ∧ t.busy = false := by
  induction hi : s.input generalizing s with
  | nil =>
    obtain ⟨t, ht⟩ := step_next s
    exact ⟨t, run_succ_of_next ht 0, execEngineStep_idle ((step_nil hi).symm.trans ht)⟩
  | cons e es ih =>
    obtain ⟨t, ht⟩ := step_next s
    have left : t.input = es := by rw [step_input ht, hi, List.tail_cons]
    obtain ⟨u, hu, idle⟩ := ih t left
    exact ⟨u, (run_succ_of_next ht _).trans hu, idle⟩

/-- Settles O52, by induction on the events still to come: the engine's turn comes after them at the latest. -/
theorem commandInFlightEnds : Obligations.CommandInFlightEnds :=
  fun s _ => ⟨_, le_rfl, run_past_input_idle s⟩

/-! ### Reset -/

/-- The reset values are those of R101 to R117. -/
theorem archReset_reset : ArchReset State.reset where
  keyStage := rfl
  keyMask := rfl
  nonceStage := rfl
  nonceMask := rfl
  ctrStage := rfl
  din := rfl
  dout := rfl
  k := rfl
  n := rfl
  c := rfl
  pend := rfl
  configured := rfl
  wrapped := rfl
  errCode := rfl
  busy := rfl

/-- A `rst` edge gives each of these registers the value it has in the reset state (R700). -/
theorem archReset_resetEdge (p : Option Access) (s : State) : ArchReset (s.resetEdge p) := { archReset_reset with }

/-- A read presented under `rst` returns 0 (R702). -/
theorem rdataUnderReset_read {a : Access} (h : a.we = false) (s : State) : s.rdataUnderReset (some a) = 0 :=
  if_neg (by simp [h])

/-- Settles O25: the step is the `rst` edge, on the state with the events after it still to come. -/
theorem resetEdgeRestoresTheResetValues : Obligations.ResetEdgeRestoresTheResetValues := by
  intro s presented rest h
  refine ⟨_, step_cons h, archReset_resetEdge presented _, rfl, ?_⟩
  rintro a rfl read
  exact rdataUnderReset_read read _

/-- Settles O26: the reset state holds the reset values, and every field of its STATUS word is 0. -/
theorem resetStateHoldsTheResetValues : Obligations.ResetStateHoldsTheResetValues := by
  have status : State.reset.statusWord = 0 := by decide
  exact ⟨archReset_reset, rfl, congrArg (fun v => Host.Outcome.next (State.reset.read v)) status⟩

/-- A SET_COUNTER, KEYSTREAM or CRYPT word with no error of encoding, issued to an idle engine that is not configured, fails and
changes nothing else (R606, R703). -/
theorem issue_not_configured {s : State} {w : Word} (legal : ¬ IllegalCommand w) (short : ¬ IllegalLength w)
    (op : opOf w = 2 ∨ opOf w = 3 ∨ opOf w = 4) (idle : s.inflight = none) (hc : s.configured = false) :
    exec .engineStep (s.issue w) = .next { s with errCode := .notConfigured } := by
  have body : commandBody (s.capture w) (s.issue w) = (s.issue w).raise .notConfigured :=
    commandBody_not_configured (f := s.capture w) legal short (s.issue w) op hc
  rw [engineStep_of_raise rfl body, ← idle]
  rfl

/-- Settles O27: the words are legal words of `OP` 2 to 4, and the reset values leave the engine idle and not configured. -/
theorem afterResetStreamsFail : Obligations.AfterResetStreamsFail := by
  intro s w hs hw
  obtain ⟨legal, short, op⟩ : ¬ IllegalCommand w ∧ ¬ IllegalLength w ∧ (opOf w = 2 ∨ opOf w = 3 ∨ opOf w = 4) := by
    fin_cases hw <;> decide
  exact ⟨s.issue w, exec_wrCtrl_idle hs.busy w, issue_not_configured legal short op hs.busy hs.configured⟩

/-! ### The latency -/

/-- Which commands run a block: of the state it is the command word, CONFIGURED and the length of `PEND` that say so (R720). -/
theorem State.willRefill_iff (s : State) :
    s.willRefill = true ↔ s.configured = true ∧ ∃ w n, s.inflight.map Inflight.cmd = some w ∧
      (decodeCommand w = .keystream n ∨ decodeCommand w = .crypt n) ∧ s.pend.length < n.toNat := by
  unfold State.willRefill
  cases s.inflight with
  | none => simp
  | some f => cases hd : decodeCommand f.cmd <;> simp [hd]

/-- The latency of a command that runs a block, and of one that does not (R720). -/
theorem State.latency_of_willRefill {s : State} (h : s.willRefill = true) : s.latency = Config.tBlock := if_pos h
@[inherit_doc State.latency_of_willRefill]
theorem State.latency_of_not_willRefill {s : State} (h : ¬ s.willRefill = true) : s.latency = Config.tShort := if_neg h

/-- Settles O59: the latency is chosen by whether the command runs a block, and that depends on these three alone. -/
theorem latencyDependsOnlyOnRefilling : Obligations.LatencyDependsOnlyOnRefilling := by
  refine ⟨fun s f hf => ?_, fun s s' word configured held => ⟨?_, ?_⟩⟩
  · have refills := s.willRefill_iff
    simp only [hf, Option.map_some, Option.some.injEq, exists_and_left, exists_eq_left'] at refills
    exact ⟨fun h => State.latency_of_willRefill (refills.mpr h),
      fun h => State.latency_of_not_willRefill (h ∘ refills.mp)⟩
  · have same : s.willRefill = s'.willRefill :=
      Bool.eq_iff_iff.mpr (by rw [s.willRefill_iff, s'.willRefill_iff, word, configured, held])
    unfold State.latency
    rw [same]
  · by_cases h : s.willRefill = true
    · exact .inl (State.latency_of_willRefill h)
    · exact .inr (State.latency_of_not_willRefill h)

end Sys2Proof.Machine
